-- ==== Sys2Proof/Word.lean ====
section
/-!
DEFINITION. The word types of the TX39/H core and their plainest arithmetic (spec/10_state.md R31, spec/41_alu.md R340).
-/

namespace Sys2Proof

/-- A 32-bit word: registers, addresses, instructions, bus data (R31, R32). -/
abbrev Word := BitVec 32

/-- One byte, the unit memory is addressed in (R102). -/
abbrev Byte := BitVec 8

/-- A 16-bit half-word. -/
abbrev Half := BitVec 16

/-- The number of a general register or of a coprocessor register (R283). -/
abbrev Reg := BitVec 5

/-- The two's complement reading of a pattern (R340). -/
abbrev signed (v : Word) : Int := v.toInt

/-- The unsigned reading of a pattern (R340). -/
abbrev unsigned (v : Word) : Nat := v.toNat

end Sys2Proof
end

