-- ==== Sys2Proof/Syntax.lean ====
section
/-!
DEFINITION. The instructions of the TX39/H core: one constructor per row of spec/opcode_table.json, its operands in the order of
the row's fields (spec/30_encoding.md R282 to R289, R295). The widths of the operand types are the widths of the fields, so a
constructor's operands take exactly the values its encoding admits. `brk` is the row "break" (that word is Lean's own).
-/

namespace Sys2Proof

/-- One instruction. `rs`, `rt`, `rd` are register numbers (in the coprocessor moves `rd` numbers a coprocessor register),
`imm` a 16-bit immediate, `shamt` a shift amount, `target` a word index, `code` the software code of a trap, `cofun` a
coprocessor function (R283). -/
inductive Instr where
  /-- `add`, R341. -/
  | add (rs : Reg) (rt : Reg) (rd : Reg)
  /-- `addu`, R342. -/
  | addu (rs : Reg) (rt : Reg) (rd : Reg)
  /-- `sub`, R343. -/
  | sub (rs : Reg) (rt : Reg) (rd : Reg)
  /-- `subu`, R344. -/
  | subu (rs : Reg) (rt : Reg) (rd : Reg)
  /-- `and`, R345. -/
  | and (rs : Reg) (rt : Reg) (rd : Reg)
  /-- `or`, R346. -/
  | or (rs : Reg) (rt : Reg) (rd : Reg)
  /-- `xor`, R347. -/
  | xor (rs : Reg) (rt : Reg) (rd : Reg)
  /-- `nor`, R348. -/
  | nor (rs : Reg) (rt : Reg) (rd : Reg)
  /-- `slt`, R349. -/
  | slt (rs : Reg) (rt : Reg) (rd : Reg)
  /-- `sltu`, R350. -/
  | sltu (rs : Reg) (rt : Reg) (rd : Reg)
  /-- `addi`, R351. -/
  | addi (rs : Reg) (rt : Reg) (imm : BitVec 16)
  /-- `addiu`, R352. -/
  | addiu (rs : Reg) (rt : Reg) (imm : BitVec 16)
  /-- `slti`, R353. -/
  | slti (rs : Reg) (rt : Reg) (imm : BitVec 16)
  /-- `sltiu`, R354. -/
  | sltiu (rs : Reg) (rt : Reg) (imm : BitVec 16)
  /-- `andi`, R355. -/
  | andi (rs : Reg) (rt : Reg) (imm : BitVec 16)
  /-- `ori`, R356. -/
  | ori (rs : Reg) (rt : Reg) (imm : BitVec 16)
  /-- `xori`, R357. -/
  | xori (rs : Reg) (rt : Reg) (imm : BitVec 16)
  /-- `lui`, R358. -/
  | lui (rt : Reg) (imm : BitVec 16)
  /-- `sll`, R360. -/
  | sll (rt : Reg) (rd : Reg) (shamt : BitVec 5)
  /-- `srl`, R361. -/
  | srl (rt : Reg) (rd : Reg) (shamt : BitVec 5)
  /-- `sra`, R362. -/
  | sra (rt : Reg) (rd : Reg) (shamt : BitVec 5)
  /-- `sllv`, R363. -/
  | sllv (rs : Reg) (rt : Reg) (rd : Reg)
  /-- `srlv`, R364. -/
  | srlv (rs : Reg) (rt : Reg) (rd : Reg)
  /-- `srav`, R365. -/
  | srav (rs : Reg) (rt : Reg) (rd : Reg)
  /-- `mult`, R381. -/
  | mult (rs : Reg) (rt : Reg) (rd : Reg)
  /-- `multu`, R383. -/
  | multu (rs : Reg) (rt : Reg) (rd : Reg)
  /-- `div`, R385. -/
  | div (rs : Reg) (rt : Reg)
  /-- `divu`, R386. -/
  | divu (rs : Reg) (rt : Reg)
  /-- `mfhi`, R387. -/
  | mfhi (rd : Reg)
  /-- `mthi`, R388. -/
  | mthi (rs : Reg)
  /-- `mflo`, R389. -/
  | mflo (rd : Reg)
  /-- `mtlo`, R392. -/
  | mtlo (rs : Reg)
  /-- `madd`, R390. -/
  | madd (rs : Reg) (rt : Reg) (rd : Reg)
  /-- `maddu`, R391. -/
  | maddu (rs : Reg) (rt : Reg) (rd : Reg)
  /-- `j`, R402. -/
  | j (target : BitVec 26)
  /-- `jal`, R403. -/
  | jal (target : BitVec 26)
  /-- `jr`, R404. -/
  | jr (rs : Reg)
  /-- `jalr`, R405. -/
  | jalr (rs : Reg) (rd : Reg)
  /-- `beq`, R406. -/
  | beq (rs : Reg) (rt : Reg) (imm : BitVec 16)
  /-- `bne`, R407. -/
  | bne (rs : Reg) (rt : Reg) (imm : BitVec 16)
  /-- `blez`, R408. -/
  | blez (rs : Reg) (imm : BitVec 16)
  /-- `bgtz`, R409. -/
  | bgtz (rs : Reg) (imm : BitVec 16)
  /-- `bltz`, R410. -/
  | bltz (rs : Reg) (imm : BitVec 16)
  /-- `bgez`, R411. -/
  | bgez (rs : Reg) (imm : BitVec 16)
  /-- `bltzl`, R419. -/
  | bltzl (rs : Reg) (imm : BitVec 16)
  /-- `bgezl`, R1200. -/
  | bgezl (rs : Reg) (imm : BitVec 16)
  /-- `bltzal`, R412. -/
  | bltzal (rs : Reg) (imm : BitVec 16)
  /-- `bgezal`, R413. -/
  | bgezal (rs : Reg) (imm : BitVec 16)
  /-- `bltzall`, R1201. -/
  | bltzall (rs : Reg) (imm : BitVec 16)
  /-- `bgezall`, R1202. -/
  | bgezall (rs : Reg) (imm : BitVec 16)
  /-- `beql`, R415. -/
  | beql (rs : Reg) (rt : Reg) (imm : BitVec 16)
  /-- `bnel`, R416. -/
  | bnel (rs : Reg) (rt : Reg) (imm : BitVec 16)
  /-- `blezl`, R417. -/
  | blezl (rs : Reg) (imm : BitVec 16)
  /-- `bgtzl`, R418. -/
  | bgtzl (rs : Reg) (imm : BitVec 16)
  /-- `lb`, R422. -/
  | lb (rs : Reg) (rt : Reg) (imm : BitVec 16)
  /-- `lh`, R424. -/
  | lh (rs : Reg) (rt : Reg) (imm : BitVec 16)
  /-- `lwl`, R430. -/
  | lwl (rs : Reg) (rt : Reg) (imm : BitVec 16)
  /-- `lw`, R426. -/
  | lw (rs : Reg) (rt : Reg) (imm : BitVec 16)
  /-- `lbu`, R423. -/
  | lbu (rs : Reg) (rt : Reg) (imm : BitVec 16)
  /-- `lhu`, R425. -/
  | lhu (rs : Reg) (rt : Reg) (imm : BitVec 16)
  /-- `lwr`, R431. -/
  | lwr (rs : Reg) (rt : Reg) (imm : BitVec 16)
  /-- `sb`, R427. -/
  | sb (rs : Reg) (rt : Reg) (imm : BitVec 16)
  /-- `sh`, R428. -/
  | sh (rs : Reg) (rt : Reg) (imm : BitVec 16)
  /-- `swl`, R432. -/
  | swl (rs : Reg) (rt : Reg) (imm : BitVec 16)
  /-- `sw`, R429. -/
  | sw (rs : Reg) (rt : Reg) (imm : BitVec 16)
  /-- `swr`, R433. -/
  | swr (rs : Reg) (rt : Reg) (imm : BitVec 16)
  /-- `syscall`, R440. -/
  | syscall (code : BitVec 20)
  /-- `break`, R441. -/
  | brk (code : BitVec 20)
  /-- `sync`, R448. -/
  | sync
  /-- `mfc0`, R321. -/
  | mfc0 (rt : Reg) (rd : Reg)
  /-- `mtc0`, R326. -/
  | mtc0 (rt : Reg) (rd : Reg)
  /-- `tlbr`, R323. -/
  | tlbr
  /-- `tlbwi`, R324. -/
  | tlbwi
  /-- `tlbwr`, R325. -/
  | tlbwr
  /-- `tlbp`, R322. -/
  | tlbp
  /-- `rfe`, R327. -/
  | rfe
  /-- `mfc1`, R442. -/
  | mfc1 (rt : Reg) (rd : Reg)
  /-- `cfc1`, R444. -/
  | cfc1 (rt : Reg) (rd : Reg)
  /-- `mtc1`, R443. -/
  | mtc1 (rt : Reg) (rd : Reg)
  /-- `ctc1`, R445. -/
  | ctc1 (rt : Reg) (rd : Reg)
  /-- `bc1f`, R447. -/
  | bc1f (imm : BitVec 16)
  /-- `bc1t`, R447. -/
  | bc1t (imm : BitVec 16)
  /-- `cop1`, R449. -/
  | cop1 (cofun : BitVec 25)
  /-- `mfc2`, R442. -/
  | mfc2 (rt : Reg) (rd : Reg)
  /-- `cfc2`, R444. -/
  | cfc2 (rt : Reg) (rd : Reg)
  /-- `mtc2`, R443. -/
  | mtc2 (rt : Reg) (rd : Reg)
  /-- `ctc2`, R445. -/
  | ctc2 (rt : Reg) (rd : Reg)
  /-- `bc2f`, R447. -/
  | bc2f (imm : BitVec 16)
  /-- `bc2t`, R447. -/
  | bc2t (imm : BitVec 16)
  /-- `cop2`, R449. -/
  | cop2 (cofun : BitVec 25)
  /-- `mfc3`, R442. -/
  | mfc3 (rt : Reg) (rd : Reg)
  /-- `cfc3`, R444. -/
  | cfc3 (rt : Reg) (rd : Reg)
  /-- `mtc3`, R443. -/
  | mtc3 (rt : Reg) (rd : Reg)
  /-- `ctc3`, R445. -/
  | ctc3 (rt : Reg) (rd : Reg)
  /-- `bc3f`, R447. -/
  | bc3f (imm : BitVec 16)
  /-- `bc3t`, R447. -/
  | bc3t (imm : BitVec 16)
  /-- `cop3`, R449. -/
  | cop3 (cofun : BitVec 25)
  /-- `cache`, R291. -/
  | cache (rs : Reg) (rt : Reg) (imm : BitVec 16)
  /-- `sdbbp`, R291. -/
  | sdbbp (code : BitVec 20)
  /-- `deret`, R291. -/
  | deret
  /-- `bc1fl`, R291. -/
  | bc1fl (imm : BitVec 16)
  /-- `bc1tl`, R291. -/
  | bc1tl (imm : BitVec 16)
  /-- `bc2fl`, R291. -/
  | bc2fl (imm : BitVec 16)
  /-- `bc2tl`, R291. -/
  | bc2tl (imm : BitVec 16)
  /-- `bc3fl`, R291. -/
  | bc3fl (imm : BitVec 16)
  /-- `bc3tl`, R291. -/
  | bc3tl (imm : BitVec 16)
  /-- `lwc0`, R435. -/
  | lwc0 (rs : Reg) (rt : Reg) (imm : BitVec 16)
  /-- `swc0`, R435. -/
  | swc0 (rs : Reg) (rt : Reg) (imm : BitVec 16)
  /-- `lwc1`, R435. -/
  | lwc1 (rs : Reg) (rt : Reg) (imm : BitVec 16)
  /-- `swc1`, R435. -/
  | swc1 (rs : Reg) (rt : Reg) (imm : BitVec 16)
  /-- `lwc2`, R435. -/
  | lwc2 (rs : Reg) (rt : Reg) (imm : BitVec 16)
  /-- `swc2`, R435. -/
  | swc2 (rs : Reg) (rt : Reg) (imm : BitVec 16)
  /-- `lwc3`, R435. -/
  | lwc3 (rs : Reg) (rt : Reg) (imm : BitVec 16)
  /-- `swc3`, R435. -/
  | swc3 (rs : Reg) (rt : Reg) (imm : BitVec 16)
deriving DecidableEq, Repr

end Sys2Proof
end

