-- ==== Sys2Proof/WellFormed.lean ====
section
/-!
DEFINITION. Well-formed instructions. The types of the operands already bound every field; what remains are the static
restrictions that the spec puts on the operands of a decoded instruction. An instruction that breaks one has an encoding and is
decoded, and the machine stops on it under a name of its own.
-/

namespace Sys2Proof

/-- The coprocessor 0 register numbers that the spec describes (R35, D3). -/
def cp0Described (rd : Reg) : Bool :=
  rd = 0 || rd = 1 || rd = 2 || rd = 4 || rd = 8 || rd = 10 || rd = 12 || rd = 13 || rd = 14 || rd = 15

/-- The static restrictions: `jalr` with `rd = rs` (R405, U-JALRSAME), a linking branch on register 31 (R412, R413, R1201, R1202,
U-BALRS31), a coprocessor 0 register number that no rule lists (R321, R326, D3). -/
def Instr.wellFormed : Instr → Bool
  | .jalr rs rd => rd != rs
  | .bltzal rs _ => rs != 31
  | .bgezal rs _ => rs != 31
  | .bltzall rs _ => rs != 31
  | .bgezall rs _ => rs != 31
  | .mfc0 _ rd => cp0Described rd
  | .mtc0 _ rd => cp0Described rd
  | _ => true

end Sys2Proof
end

