-- ==== Sys2Proof/Decode.lean ====
section
/-!
DEFINITION. The decoder, total on every 32-bit word, and the encoder (spec/30_encoding.md R282 to R295). A word is an instruction,
a reserved encoding (R290), an instruction with a non-zero unused field (R292, U-MBZ), or a coprocessor 1 to 3 word that no
row of the table covers (R449). What the machine does with the last three is in Sys2Proof/Machine/Step.lean.
-/

namespace Sys2Proof

/-- What a word decodes to. -/
inductive Decoded where
  /-- An instruction of the opcode table. -/
  | instr (i : Instr)
  /-- A reserved encoding: Reserved Instruction (R290, R328). -/
  | reserved
  /-- The opcode and function bits of an instruction with a non-zero field that it does not use (R292). -/
  | unusedField
  /-- A coprocessor 1 to 3 word outside the table (R449). -/
  | copUndescribed
deriving DecidableEq, Repr

/-! ## Fields of a word (R282) -/

/-- Bits 31:26. -/
def opOf (w : Word) : BitVec 6 := w.extractLsb' 26 6
/-- Bits 25:21. -/
def rsOf (w : Word) : Reg := w.extractLsb' 21 5
/-- Bits 20:16. -/
def rtOf (w : Word) : Reg := w.extractLsb' 16 5
/-- Bits 15:11. -/
def rdOf (w : Word) : Reg := w.extractLsb' 11 5
/-- Bits 10:6. -/
def shamtOf (w : Word) : BitVec 5 := w.extractLsb' 6 5
/-- Bits 5:0. -/
def functOf (w : Word) : BitVec 6 := w.extractLsb' 0 6
/-- Bits 15:0. -/
def immOf (w : Word) : BitVec 16 := w.extractLsb' 0 16
/-- Bits 25:0. -/
def targetOf (w : Word) : BitVec 26 := w.extractLsb' 0 26
/-- Bits 25:6. -/
def codeOf (w : Word) : BitVec 20 := w.extractLsb' 6 20
/-- Bits 24:0. -/
def cofunOf (w : Word) : BitVec 25 := w.extractLsb' 0 25

/-! ## Packing the formats (R282) -/

/-- Format R. -/
def packR (op : BitVec 6) (rs rt rd : Reg) (shamt : BitVec 5) (funct : BitVec 6) : Word :=
  op ++ rs ++ rt ++ rd ++ shamt ++ funct
/-- Formats I, RI and CZB: `rt` may be a sub-opcode. -/
def packI (op : BitVec 6) (rs rt : Reg) (imm : BitVec 16) : Word := op ++ rs ++ rt ++ imm
/-- Format J. -/
def packJ (op : BitVec 6) (target : BitVec 26) : Word := op ++ target
/-- `syscall`, `break`, `sdbbp`: a 20-bit code field. -/
def packCode (op : BitVec 6) (code : BitVec 20) (funct : BitVec 6) : Word := op ++ code ++ funct
/-- `copz cofun`: bit 25 is 1. -/
def packCofun (op : BitVec 6) (cofun : BitVec 25) : Word := op ++ (1#1) ++ cofun

/-! ## The decoder -/

/-- An instruction whose unused fields are zero when `mbz` holds (R292). -/
def keepIf (mbz : Bool) (i : Instr) : Decoded := if mbz then .instr i else .unusedField

/-- `op` = 000000 (R286). -/
def decodeSpecial (rs rt rd : Reg) (shamt : BitVec 5) (code : BitVec 20) (funct : BitVec 6) : Decoded :=
  match funct with
  | 0x00#6 => keepIf (rs = 0) (.sll rt rd shamt)
  | 0x02#6 => keepIf (rs = 0) (.srl rt rd shamt)
  | 0x03#6 => keepIf (rs = 0) (.sra rt rd shamt)
  | 0x04#6 => keepIf (shamt = 0) (.sllv rs rt rd)
  | 0x06#6 => keepIf (shamt = 0) (.srlv rs rt rd)
  | 0x07#6 => keepIf (shamt = 0) (.srav rs rt rd)
  | 0x08#6 => keepIf (rt = 0 && rd = 0 && shamt = 0) (.jr rs)
  | 0x09#6 => keepIf (rt = 0 && shamt = 0) (.jalr rs rd)
  | 0x0C#6 => .instr (.syscall code)
  | 0x0D#6 => .instr (.brk code)
  | 0x0E#6 => .instr (.sdbbp code)
  | 0x0F#6 => keepIf (code = 0) (.sync)
  | 0x10#6 => keepIf (rs = 0 && rt = 0 && shamt = 0) (.mfhi rd)
  | 0x11#6 => keepIf (rt = 0 && rd = 0 && shamt = 0) (.mthi rs)
  | 0x12#6 => keepIf (rs = 0 && rt = 0 && shamt = 0) (.mflo rd)
  | 0x13#6 => keepIf (rt = 0 && rd = 0 && shamt = 0) (.mtlo rs)
  | 0x18#6 => keepIf (shamt = 0) (.mult rs rt rd)
  | 0x19#6 => keepIf (shamt = 0) (.multu rs rt rd)
  | 0x1A#6 => keepIf (rd = 0 && shamt = 0) (.div rs rt)
  | 0x1B#6 => keepIf (rd = 0 && shamt = 0) (.divu rs rt)
  | 0x20#6 => keepIf (shamt = 0) (.add rs rt rd)
  | 0x21#6 => keepIf (shamt = 0) (.addu rs rt rd)
  | 0x22#6 => keepIf (shamt = 0) (.sub rs rt rd)
  | 0x23#6 => keepIf (shamt = 0) (.subu rs rt rd)
  | 0x24#6 => keepIf (shamt = 0) (.and rs rt rd)
  | 0x25#6 => keepIf (shamt = 0) (.or rs rt rd)
  | 0x26#6 => keepIf (shamt = 0) (.xor rs rt rd)
  | 0x27#6 => keepIf (shamt = 0) (.nor rs rt rd)
  | 0x2A#6 => keepIf (shamt = 0) (.slt rs rt rd)
  | 0x2B#6 => keepIf (shamt = 0) (.sltu rs rt rd)
  | _ => .reserved

/-- `op` = 000001, the sub-opcode in `rt` (R287). -/
def decodeRegimm (rs rt : Reg) (imm : BitVec 16) : Decoded :=
  match rt with
  | 0x00#5 => .instr (.bltz rs imm)
  | 0x01#5 => .instr (.bgez rs imm)
  | 0x02#5 => .instr (.bltzl rs imm)
  | 0x03#5 => .instr (.bgezl rs imm)
  | 0x10#5 => .instr (.bltzal rs imm)
  | 0x11#5 => .instr (.bgezal rs imm)
  | 0x12#5 => .instr (.bltzall rs imm)
  | 0x13#5 => .instr (.bgezall rs imm)
  | _ => .reserved

/-- `op` = 011100, the multiply-add group (R295). -/
def decodeMadd (rs rt rd : Reg) (shamt : BitVec 5) (funct : BitVec 6) : Decoded :=
  match funct with
  | 0x00#6 => keepIf (shamt = 0) (.madd rs rt rd)
  | 0x01#6 => keepIf (shamt = 0) (.maddu rs rt rd)
  | _ => .reserved

/-- Coprocessor 0 with bit 25 = 1: the function in bits 5:0, bits 24:6 zero (R288). -/
def decodeCop0Fun (mid : Bool) (funct : BitVec 6) : Decoded :=
  match funct with
  | 0x01#6 => keepIf mid .tlbr
  | 0x02#6 => keepIf mid .tlbwi
  | 0x06#6 => keepIf mid .tlbwr
  | 0x08#6 => keepIf mid .tlbp
  | 0x10#6 => keepIf mid .rfe
  | 0x1F#6 => keepIf mid .deret
  | _ => .reserved

/-- `op` = 010000 (R288, R328). -/
def decodeCop0 (rs rt rd : Reg) (shamt : BitVec 5) (code : BitVec 20) (funct : BitVec 6) : Decoded :=
  match rs with
  | 0x00#5 => keepIf (shamt = 0 && funct = 0) (.mfc0 rt rd)
  | 0x04#5 => keepIf (shamt = 0 && funct = 0) (.mtc0 rt rd)
  | _ => if rs.getLsbD 4 then decodeCop0Fun (code = 0x80000#20) funct else .reserved

/-- `op` of coprocessor 1 (R289, R449). -/
def decodeCop1 (rs rt rd : Reg) (shamt : BitVec 5) (funct : BitVec 6) (imm : BitVec 16) (cofun : BitVec 25) : Decoded :=
  match rs with
  | 0x00#5 => keepIf (shamt = 0 && funct = 0) (.mfc1 rt rd)
  | 0x02#5 => keepIf (shamt = 0 && funct = 0) (.cfc1 rt rd)
  | 0x04#5 => keepIf (shamt = 0 && funct = 0) (.mtc1 rt rd)
  | 0x06#5 => keepIf (shamt = 0 && funct = 0) (.ctc1 rt rd)
  | 0x08#5 =>
    match rt with
    | 0x00#5 => .instr (.bc1f imm)
    | 0x01#5 => .instr (.bc1t imm)
    | 0x02#5 => .instr (.bc1fl imm)
    | 0x03#5 => .instr (.bc1tl imm)
    | _ => .copUndescribed
  | _ => if rs.getLsbD 4 then .instr (.cop1 cofun) else .copUndescribed

/-- `op` of coprocessor 2 (R289, R449). -/
def decodeCop2 (rs rt rd : Reg) (shamt : BitVec 5) (funct : BitVec 6) (imm : BitVec 16) (cofun : BitVec 25) : Decoded :=
  match rs with
  | 0x00#5 => keepIf (shamt = 0 && funct = 0) (.mfc2 rt rd)
  | 0x02#5 => keepIf (shamt = 0 && funct = 0) (.cfc2 rt rd)
  | 0x04#5 => keepIf (shamt = 0 && funct = 0) (.mtc2 rt rd)
  | 0x06#5 => keepIf (shamt = 0 && funct = 0) (.ctc2 rt rd)
  | 0x08#5 =>
    match rt with
    | 0x00#5 => .instr (.bc2f imm)
    | 0x01#5 => .instr (.bc2t imm)
    | 0x02#5 => .instr (.bc2fl imm)
    | 0x03#5 => .instr (.bc2tl imm)
    | _ => .copUndescribed
  | _ => if rs.getLsbD 4 then .instr (.cop2 cofun) else .copUndescribed

/-- `op` of coprocessor 3 (R289, R449). -/
def decodeCop3 (rs rt rd : Reg) (shamt : BitVec 5) (funct : BitVec 6) (imm : BitVec 16) (cofun : BitVec 25) : Decoded :=
  match rs with
  | 0x00#5 => keepIf (shamt = 0 && funct = 0) (.mfc3 rt rd)
  | 0x02#5 => keepIf (shamt = 0 && funct = 0) (.cfc3 rt rd)
  | 0x04#5 => keepIf (shamt = 0 && funct = 0) (.mtc3 rt rd)
  | 0x06#5 => keepIf (shamt = 0 && funct = 0) (.ctc3 rt rd)
  | 0x08#5 =>
    match rt with
    | 0x00#5 => .instr (.bc3f imm)
    | 0x01#5 => .instr (.bc3t imm)
    | 0x02#5 => .instr (.bc3fl imm)
    | 0x03#5 => .instr (.bc3tl imm)
    | _ => .copUndescribed
  | _ => if rs.getLsbD 4 then .instr (.cop3 cofun) else .copUndescribed

/-- The decoder over the fields of a word: the major opcode map (R285). It has no load-linked and no store-conditional (R128): 30 and 38 (hex) are
`lwc0` and `swc0`. -/
def decodeFields (op : BitVec 6) (rs rt rd : Reg) (shamt : BitVec 5) (funct : BitVec 6) (imm : BitVec 16)
    (target : BitVec 26) (code : BitVec 20) (cofun : BitVec 25) : Decoded :=
  match op with
  | 0x00#6 => decodeSpecial rs rt rd shamt code funct
  | 0x01#6 => decodeRegimm rs rt imm
  | 0x02#6 => .instr (.j target)
  | 0x03#6 => .instr (.jal target)
  | 0x04#6 => .instr (.beq rs rt imm)
  | 0x05#6 => .instr (.bne rs rt imm)
  | 0x06#6 => keepIf (rt = 0) (.blez rs imm)
  | 0x07#6 => keepIf (rt = 0) (.bgtz rs imm)
  | 0x08#6 => .instr (.addi rs rt imm)
  | 0x09#6 => .instr (.addiu rs rt imm)
  | 0x0A#6 => .instr (.slti rs rt imm)
  | 0x0B#6 => .instr (.sltiu rs rt imm)
  | 0x0C#6 => .instr (.andi rs rt imm)
  | 0x0D#6 => .instr (.ori rs rt imm)
  | 0x0E#6 => .instr (.xori rs rt imm)
  | 0x0F#6 => keepIf (rs = 0) (.lui rt imm)
  | 0x10#6 => decodeCop0 rs rt rd shamt code funct
  | 0x11#6 => decodeCop1 rs rt rd shamt funct imm cofun
  | 0x12#6 => decodeCop2 rs rt rd shamt funct imm cofun
  | 0x13#6 => decodeCop3 rs rt rd shamt funct imm cofun
  | 0x14#6 => .instr (.beql rs rt imm)
  | 0x15#6 => .instr (.bnel rs rt imm)
  | 0x16#6 => keepIf (rt = 0) (.blezl rs imm)
  | 0x17#6 => keepIf (rt = 0) (.bgtzl rs imm)
  | 0x1C#6 => decodeMadd rs rt rd shamt funct
  | 0x20#6 => .instr (.lb rs rt imm)
  | 0x21#6 => .instr (.lh rs rt imm)
  | 0x22#6 => .instr (.lwl rs rt imm)
  | 0x23#6 => .instr (.lw rs rt imm)
  | 0x24#6 => .instr (.lbu rs rt imm)
  | 0x25#6 => .instr (.lhu rs rt imm)
  | 0x26#6 => .instr (.lwr rs rt imm)
  | 0x28#6 => .instr (.sb rs rt imm)
  | 0x29#6 => .instr (.sh rs rt imm)
  | 0x2A#6 => .instr (.swl rs rt imm)
  | 0x2B#6 => .instr (.sw rs rt imm)
  | 0x2E#6 => .instr (.swr rs rt imm)
  | 0x2F#6 => .instr (.cache rs rt imm)
  | 0x30#6 => .instr (.lwc0 rs rt imm)
  | 0x31#6 => .instr (.lwc1 rs rt imm)
  | 0x32#6 => .instr (.lwc2 rs rt imm)
  | 0x33#6 => .instr (.lwc3 rs rt imm)
  | 0x38#6 => .instr (.swc0 rs rt imm)
  | 0x39#6 => .instr (.swc1 rs rt imm)
  | 0x3A#6 => .instr (.swc2 rs rt imm)
  | 0x3B#6 => .instr (.swc3 rs rt imm)
  | _ => .reserved

/-- The decoder (R294). -/
def decode (w : Word) : Decoded :=
  decodeFields (opOf w) (rsOf w) (rtOf w) (rdOf w) (shamtOf w) (functOf w) (immOf w) (targetOf w) (codeOf w) (cofunOf w)

/-! ## The encoder -/

/-- The word of an instruction, from the encoding rows of the rules its constructor cites. -/
def encode : Instr → Word
  | .add rs rt rd => packR 0x00 rs rt rd 0x00 0x20
  | .addu rs rt rd => packR 0x00 rs rt rd 0x00 0x21
  | .sub rs rt rd => packR 0x00 rs rt rd 0x00 0x22
  | .subu rs rt rd => packR 0x00 rs rt rd 0x00 0x23
  | .and rs rt rd => packR 0x00 rs rt rd 0x00 0x24
  | .or rs rt rd => packR 0x00 rs rt rd 0x00 0x25
  | .xor rs rt rd => packR 0x00 rs rt rd 0x00 0x26
  | .nor rs rt rd => packR 0x00 rs rt rd 0x00 0x27
  | .slt rs rt rd => packR 0x00 rs rt rd 0x00 0x2A
  | .sltu rs rt rd => packR 0x00 rs rt rd 0x00 0x2B
  | .addi rs rt imm => packI 0x08 rs rt imm
  | .addiu rs rt imm => packI 0x09 rs rt imm
  | .slti rs rt imm => packI 0x0A rs rt imm
  | .sltiu rs rt imm => packI 0x0B rs rt imm
  | .andi rs rt imm => packI 0x0C rs rt imm
  | .ori rs rt imm => packI 0x0D rs rt imm
  | .xori rs rt imm => packI 0x0E rs rt imm
  | .lui rt imm => packI 0x0F 0x00 rt imm
  | .sll rt rd shamt => packR 0x00 0x00 rt rd shamt 0x00
  | .srl rt rd shamt => packR 0x00 0x00 rt rd shamt 0x02
  | .sra rt rd shamt => packR 0x00 0x00 rt rd shamt 0x03
  | .sllv rs rt rd => packR 0x00 rs rt rd 0x00 0x04
  | .srlv rs rt rd => packR 0x00 rs rt rd 0x00 0x06
  | .srav rs rt rd => packR 0x00 rs rt rd 0x00 0x07
  | .mult rs rt rd => packR 0x00 rs rt rd 0x00 0x18
  | .multu rs rt rd => packR 0x00 rs rt rd 0x00 0x19
  | .div rs rt => packR 0x00 rs rt 0x00 0x00 0x1A
  | .divu rs rt => packR 0x00 rs rt 0x00 0x00 0x1B
  | .mfhi rd => packR 0x00 0x00 0x00 rd 0x00 0x10
  | .mthi rs => packR 0x00 rs 0x00 0x00 0x00 0x11
  | .mflo rd => packR 0x00 0x00 0x00 rd 0x00 0x12
  | .mtlo rs => packR 0x00 rs 0x00 0x00 0x00 0x13
  | .madd rs rt rd => packR 0x1C rs rt rd 0x00 0x00
  | .maddu rs rt rd => packR 0x1C rs rt rd 0x00 0x01
  | .j target => packJ 0x02 target
  | .jal target => packJ 0x03 target
  | .jr rs => packR 0x00 rs 0x00 0x00 0x00 0x08
  | .jalr rs rd => packR 0x00 rs 0x00 rd 0x00 0x09
  | .beq rs rt imm => packI 0x04 rs rt imm
  | .bne rs rt imm => packI 0x05 rs rt imm
  | .blez rs imm => packI 0x06 rs 0x00 imm
  | .bgtz rs imm => packI 0x07 rs 0x00 imm
  | .bltz rs imm => packI 0x01 rs 0x00 imm
  | .bgez rs imm => packI 0x01 rs 0x01 imm
  | .bltzl rs imm => packI 0x01 rs 0x02 imm
  | .bgezl rs imm => packI 0x01 rs 0x03 imm
  | .bltzal rs imm => packI 0x01 rs 0x10 imm
  | .bgezal rs imm => packI 0x01 rs 0x11 imm
  | .bltzall rs imm => packI 0x01 rs 0x12 imm
  | .bgezall rs imm => packI 0x01 rs 0x13 imm
  | .beql rs rt imm => packI 0x14 rs rt imm
  | .bnel rs rt imm => packI 0x15 rs rt imm
  | .blezl rs imm => packI 0x16 rs 0x00 imm
  | .bgtzl rs imm => packI 0x17 rs 0x00 imm
  | .lb rs rt imm => packI 0x20 rs rt imm
  | .lh rs rt imm => packI 0x21 rs rt imm
  | .lwl rs rt imm => packI 0x22 rs rt imm
  | .lw rs rt imm => packI 0x23 rs rt imm
  | .lbu rs rt imm => packI 0x24 rs rt imm
  | .lhu rs rt imm => packI 0x25 rs rt imm
  | .lwr rs rt imm => packI 0x26 rs rt imm
  | .sb rs rt imm => packI 0x28 rs rt imm
  | .sh rs rt imm => packI 0x29 rs rt imm
  | .swl rs rt imm => packI 0x2A rs rt imm
  | .sw rs rt imm => packI 0x2B rs rt imm
  | .swr rs rt imm => packI 0x2E rs rt imm
  | .syscall code => packCode 0x00 code 0x0C
  | .brk code => packCode 0x00 code 0x0D
  | .sync => packR 0x00 0x00 0x00 0x00 0x00 0x0F
  | .mfc0 rt rd => packR 0x10 0x00 rt rd 0x00 0x00
  | .mtc0 rt rd => packR 0x10 0x04 rt rd 0x00 0x00
  | .tlbr => packR 0x10 0x10 0x00 0x00 0x00 0x01
  | .tlbwi => packR 0x10 0x10 0x00 0x00 0x00 0x02
  | .tlbwr => packR 0x10 0x10 0x00 0x00 0x00 0x06
  | .tlbp => packR 0x10 0x10 0x00 0x00 0x00 0x08
  | .rfe => packR 0x10 0x10 0x00 0x00 0x00 0x10
  | .mfc1 rt rd => packR 0x11 0x00 rt rd 0x00 0x00
  | .cfc1 rt rd => packR 0x11 0x02 rt rd 0x00 0x00
  | .mtc1 rt rd => packR 0x11 0x04 rt rd 0x00 0x00
  | .ctc1 rt rd => packR 0x11 0x06 rt rd 0x00 0x00
  | .bc1f imm => packI 0x11 0x08 0x00 imm
  | .bc1t imm => packI 0x11 0x08 0x01 imm
  | .cop1 cofun => packCofun 0x11 cofun
  | .mfc2 rt rd => packR 0x12 0x00 rt rd 0x00 0x00
  | .cfc2 rt rd => packR 0x12 0x02 rt rd 0x00 0x00
  | .mtc2 rt rd => packR 0x12 0x04 rt rd 0x00 0x00
  | .ctc2 rt rd => packR 0x12 0x06 rt rd 0x00 0x00
  | .bc2f imm => packI 0x12 0x08 0x00 imm
  | .bc2t imm => packI 0x12 0x08 0x01 imm
  | .cop2 cofun => packCofun 0x12 cofun
  | .mfc3 rt rd => packR 0x13 0x00 rt rd 0x00 0x00
  | .cfc3 rt rd => packR 0x13 0x02 rt rd 0x00 0x00
  | .mtc3 rt rd => packR 0x13 0x04 rt rd 0x00 0x00
  | .ctc3 rt rd => packR 0x13 0x06 rt rd 0x00 0x00
  | .bc3f imm => packI 0x13 0x08 0x00 imm
  | .bc3t imm => packI 0x13 0x08 0x01 imm
  | .cop3 cofun => packCofun 0x13 cofun
  | .cache rs rt imm => packI 0x2F rs rt imm
  | .sdbbp code => packCode 0x00 code 0x0E
  | .deret => packR 0x10 0x10 0x00 0x00 0x00 0x1F
  | .bc1fl imm => packI 0x11 0x08 0x02 imm
  | .bc1tl imm => packI 0x11 0x08 0x03 imm
  | .bc2fl imm => packI 0x12 0x08 0x02 imm
  | .bc2tl imm => packI 0x12 0x08 0x03 imm
  | .bc3fl imm => packI 0x13 0x08 0x02 imm
  | .bc3tl imm => packI 0x13 0x08 0x03 imm
  | .lwc0 rs rt imm => packI 0x30 rs rt imm
  | .swc0 rs rt imm => packI 0x38 rs rt imm
  | .lwc1 rs rt imm => packI 0x31 rs rt imm
  | .swc1 rs rt imm => packI 0x39 rs rt imm
  | .lwc2 rs rt imm => packI 0x32 rs rt imm
  | .swc2 rs rt imm => packI 0x3A rs rt imm
  | .lwc3 rs rt imm => packI 0x33 rs rt imm
  | .swc3 rs rt imm => packI 0x3B rs rt imm

/-! ## Bytes -/

/-- The four bytes of a word at rising addresses (R102). -/
def wordToBytes (bigEndian : Bool) (w : Word) : List Byte :=
  let le := [w.extractLsb' 0 8, w.extractLsb' 8 8, w.extractLsb' 16 8, w.extractLsb' 24 8]
  if bigEndian then le.reverse else le

/-- The word whose four bytes at rising addresses are given (R102). -/
def bytesToWord (bigEndian : Bool) (b0 b1 b2 b3 : Byte) : Word :=
  if bigEndian then b0 ++ b1 ++ b2 ++ b3 else b3 ++ b2 ++ b1 ++ b0

/-- Decode the instruction in the first four bytes; `none` when there are fewer than four (R280, R281). -/
def decodeBytes (bigEndian : Bool) : List Byte → Option Decoded
  | b0 :: b1 :: b2 :: b3 :: _ => some (decode (bytesToWord bigEndian b0 b1 b2 b3))
  | _ => none

/-- The instruction of an opcode-table word: its bits as bytes in memory order, through the decoder. Every row of the table is
one 32-bit word (R280); with fewer bits the upper ones are zero. The bytes are laid out in little-endian order and read
in the same order; the big-endian round trip gives the same word. -/
def decodeTableWord (nbits w : Nat) : Option Instr :=
  match decodeBytes false (wordToBytes false (BitVec.ofNat 32 (w % 2 ^ nbits))) with
  | some (.instr i) => some i
  | _ => none

end Sys2Proof
end

