-- ==== Sys2Proof/Machine/Bits.lean ====
section
/-!
DEFINITION. Fields of words: the helpers that the registers of the core and of the modules are read and written with.
-/

namespace Sys2Proof.Machine

/-- Bit `i` of a word. -/
def bitOf (w : Word) (i : Nat) : Bool := w.getLsbD i

/-- The word with only bit `i` set. -/
def bitMask (i : Nat) : Word := 1#32 <<< i

/-- `w` with bit `i` set to `b`. -/
def withBit (w : Word) (i : Nat) (b : Bool) : Word := if b then w ||| bitMask i else w &&& ~~~(bitMask i)

/-- The bits of `old` outside `mask` and those of `new` inside it: a write that only the bits of `mask` accept. -/
def maskedWrite (mask old new : Word) : Word := (old &&& ~~~mask) ||| (new &&& mask)

/-- A truth value as bit `i` of a word. -/
def boolAt (b : Bool) (i : Nat) : Word := if b then bitMask i else 0

/-- A field of a register: `len` bits from bit `lo`. -/
def fieldOf (w : Word) (lo len : Nat) : BitVec len := w.extractLsb' lo len

/-- A value placed at bit `lo` of a word. -/
def placed {n : Nat} (v : BitVec n) (lo : Nat) : Word := v.setWidth 32 <<< lo

/-- Sign extension of an immediate, a byte or a half-word to a word (R284). -/
def sext {n : Nat} (v : BitVec n) : Word := v.signExtend 32

/-- Zero extension to a word (R284). -/
def zext {n : Nat} (v : BitVec n) : Word := v.setWidth 32

/-- The mask of the byte lanes that are enabled. -/
def laneMask (be : BitVec 4) : Word :=
  (if be.getLsbD 0 then 0x000000FF#32 else 0) ||| (if be.getLsbD 1 then 0x0000FF00#32 else 0) |||
  (if be.getLsbD 2 then 0x00FF0000#32 else 0) ||| (if be.getLsbD 3 then 0xFF000000#32 else 0)

/-- Byte lane `l` of a word: bits 8l+7:8l. -/
def laneOf (w : Word) (l : Nat) : Byte := w.extractLsb' (8 * l) 8

/-- Four lanes as a word, lane 0 first. -/
def ofLanes (l0 l1 l2 l3 : Byte) : Word := l3 ++ l2 ++ l1 ++ l0

end Sys2Proof.Machine
end

