-- ==== Sys2Proof/Config.lean ====
section
/-!
DEFINITION. What the spec leaves to the implementation: parameters without a value and the free values. None has a
body: nothing can be proved of the value of any of them (spec/92_eei_decisions.md D8, spec/93_implementation_defined.md).
-/

namespace Sys2Proof

/-- The value read from PRId, coprocessor 0 register 15: the run parameter `PRID_VALUE` (R45, D8).
UNVERIFIED: no source gives it. Safe: no value is assumed. Log entry 5. -/
opaque Config.pridValue : Word

/-- The free values of the model: the value that the use named by the second argument takes at the draw numbered by the
first (`State.draws`). Every "any value" and every "draw" of the spec is read from here (`Sys2Proof.Machine.State.free`).
Safe: nothing constrains it. Log entry 8. -/
opaque Config.freeWord : Nat → Nat → Word

/-- With CSERSEL = 0 the fixed CSERCLK divider stays in the path: whether it does is in no source (R543, N61-3).
UNVERIFIED. Safe: no value is assumed. Log entry 51. -/
opaque Config.cserFixedStage : Bool

/-- The first pixel of a word is at its most significant end: which end holds it is in no source (R1010, N69-2).
UNVERIFIED. Safe: no value is assumed. Log entry 46. -/
opaque Config.pixelFirstHigh : Bool

/-- The red, green and blue fields of a colour pixel: where they stand in the byte is in no source (R1010, N69-2).
UNVERIFIED. Safe: nothing constrains it. Log entry 46. -/
opaque Config.colourFields : Byte → BitVec 3 × BitVec 3 × BitVec 2

/-- The Enable Select circuit: in which frames of its period a pixel is on, of all the ways to be on in as many as its duty says (R1012). The
number of the way comes from the shade, its pattern field and the position of the pixel among four; the figure is lost (R1013, N69-3).
UNVERIFIED. Safe: nothing constrains it. Log entry 46. -/
opaque Config.ditherChoice : BitVec 4 → BitVec 4 → Nat → Nat

/-- The time from the end of a line to VIDDONE, in CLK periods, with VIDDONEVAL = 0, below its minimum (R1003).
UNVERIFIED. Safe: no value is assumed. Log entry 46. -/
opaque Config.vidDoneZero : BitVec 11

end Sys2Proof
end

