-- ==== Sys2Proof/Machine/Device.lean ====
section
/-!
DEFINITION. The state of the modules of the chip outside the processor core: the function registers of spec/61_siu_clock.md R523 and
the internal state listed in spec/10_state.md R61, each module a structure with its value after Power On Reset. A register
that software reads or writes whole is a word with the numbering of its table; reserved bits read 0 and ignore writes
(R22, D13). A field whose reset column is X is 0 here (DESIGN CHOICE, unsafe, log entry 19).
-/

namespace Sys2Proof.Machine

/-- Who starts a transaction on the memory bus: the core's reads, the write buffer, the DMA engines (R120, R121, R524). -/
inductive BusUser where
  | core
  | buffer
  | dma
deriving DecidableEq, Repr

/-- A module that makes DMA requests (R521); a flag false names UARTA, true UARTB. -/
inductive DmaUnit where
  | mbus
  | video
  | sound
  | tel
  | chi
  | uart (b : Bool)
deriving DecidableEq, Repr

/-- A DMA transaction: the module, and whether its data goes to memory. -/
structure DmaJob where
  unit : DmaUnit
  toMemory : Bool
deriving DecidableEq, Repr

/-- The DMA requests that the end of a CHI half-frame makes (R580): whether it is half-frame B, and the directions. -/
structure ChiJob where
  half : Bool
  rx : Bool
  tx : Bool
deriving DecidableEq, Repr

/-- How long a step of the core keeps the bus (R128, log entry 17): for all its transactions, for one more, or no longer. -/
inductive BusTurn where
  | whole
  | one
  | over
deriving DecidableEq, Repr

/-- The Bus Interface Unit (spec/21_biu.md R258 to R266, R236, R240 to R243). -/
structure Biu where
  /-- Memory Configuration 0 to 8. -/
  mc0 : Word
  mc1 : Word
  mc2 : Word
  mc3 : Word
  mc4 : Word
  mc5 : Word
  mc6 : Word
  mc7 : Word
  mc8 : Word
  /-- The WRBUSERRINT latch (R242). -/
  wrBusErr : Bool
  /-- The watch dog down counter (R242). -/
  watch : BitVec 10
  /-- The refresh down counters (R240). -/
  rfsh0 : BitVec 6
  rfsh1 : BitVec 6
  /-- Refresh cycles done, up to 8: the start-up requirement of R224 and R235. -/
  refreshes0 : BitVec 4
  refreshes1 : BitVec 4
  /-- The SDRAM of the bank got Precharge All, and after it a Mode Register word (R235, R236). -/
  precharged0 : Bool
  precharged1 : Bool
  sdMode0 : Option (BitVec 13)
  sdMode1 : Option (BitVec 13)
  /-- Whose transaction is on the bus and not yet acknowledged (R188, R216). -/
  held : Option BusUser
  /-- The card whose WAIT* that transaction heeds, if there is one (R216). -/
  heeded : Option Bool
  /-- How long the step of the core that is going on keeps the bus; between two steps `whole` (the model's own field, log entry 17). -/
  turn : BusTurn
  /-- The memory interface has woken up, and no SDRAM has been accessed since (R258); the CLK periods without one, up to 7 (R237). -/
  woken : Bool
  sdIdle : BitVec 3
deriving DecidableEq, Repr

/-- Power On Reset (R258 to R266): `CS0SIZE` is the level of the TESTAIU strap. -/
def Biu.reset (testAiu : Bool) : Biu :=
  { mc0 := if testAiu then 1 else 0, mc1 := 0, mc2 := 0xFF, mc3 := 0, mc4 := 0x00010000, mc5 := 0, mc6 := 0, mc7 := 0, mc8 := 0,
    wrBusErr := false, watch := 0, rfsh0 := 0, rfsh1 := 0, refreshes0 := 0, refreshes1 := 0, precharged0 := false,
    precharged1 := false, sdMode0 := none, sdMode1 := none, held := none, heeded := none, turn := .whole, woken := false, sdIdle := 0 }

/-- The Interrupt Module (spec/63_interrupt.md R631 to R650) and the NMI request it enables (R646, R793). -/
structure Intr where
  /-- Interrupt Status 1 to 5: the latches. -/
  st1 : Word
  st2 : Word
  st3 : Word
  st4 : Word
  st5 : Word
  /-- Enable Interrupt 1 to 5. -/
  en1 : Word
  en2 : Word
  en3 : Word
  en4 : Word
  en5 : Word
  /-- Enable Interrupt 6: GLOBALEN in bit 18, PRIORITYMASK in bits 15:0. -/
  en6 : Word
  /-- Interrupt Status 6 bit 29. -/
  pwrokNmi : Bool
  /-- An NMI that the core has not taken yet (R476). -/
  nmi : Bool
deriving DecidableEq, Repr

/-- Power On Reset (R637). -/
def Intr.reset : Intr :=
  { st1 := 0, st2 := 0, st3 := 0, st4 := 0, st5 := 0, en1 := 0, en2 := 0, en3 := 0, en4 := 0, en5 := 0, en6 := 0,
    pwrokNmi := false, nmi := false }

/-- The I/O Module (spec/64_io_ir.md R682 to R695). -/
structure Io where
  /-- I/O Control: IODEBSEL, IODIREC, IODOUT (the IODIN bits are not stored). -/
  ctl : Word
  mfioOut : Word
  mfioDir : Word
  mfioSel : Word
  ioPd : Word
  mfioPd : Word
  /-- What the outside world drives on IO[6:0] and what the debouncers last passed on. -/
  ioPin : BitVec 7
  ioDeb : BitVec 7
  /-- What the outside world drives on MIO[31:0] where the chip does not. -/
  mioPin : Word
  /-- The levels that the edge flip-flops saw last. -/
  ioSeen : BitVec 7
  mioSeen : Word
deriving DecidableEq, Repr

/-- Power On Reset (R689 to R695). The outside world drives no pin high but the idle levels of DREQ*, CARD1WAIT*, CARD2WAIT* and RXD
(DESIGN CHOICE, log entry 18); the levels seen are those of the pins: beside these four DGRNT*, CS1*, CS2*, CS3*. -/
def Io.reset : Io :=
  { ctl := 0, mfioOut := 0, mfioDir := 0, mfioSel := 0xF20F0FFF, ioPd := 0x7F, mfioPd := 0xFAF03FFC, ioPin := 0, ioDeb := 0,
    mioPin := 0x08800018, ioSeen := 0, mioSeen := 0x0CF00018 }

/-- The IR Module (spec/64_io_ir.md R702 to R712). -/
structure Ir where
  ctl1 : Word
  ctl2 : Word
  txHold : BitVec 16
  txFull : Bool
  /-- The counters of the Consumer IR (R703, R704): baud, period width, on-time width, period number. -/
  baud : BitVec 8
  width : BitVec 8
  onCnt : BitVec 8
  periods : BitVec 7
  onOff : Bool
  /-- The intermediate holding register, and whether the lower byte is the next to use. -/
  inter : BitVec 8
  lower : Bool
  /-- The carrier detect state machine (R705): Delay and Wait down counters, its RXPWR assertion. -/
  delay : BitVec 8
  wait : BitVec 8
  smPower : Bool
  /-- What the outside world drives on CARDET, the level of it that the chip saw last, and what it drives on IRIN. -/
  carDetPin : Bool
  carDet : Bool
  irIn : Bool
deriving DecidableEq, Repr

/-- Power On Reset (R710 to R712); IRIN is marking (DESIGN CHOICE, log entry 18). -/
def Ir.reset : Ir :=
  { ctl1 := 0, ctl2 := 0, txHold := 0, txFull := false, baud := 0, width := 0, onCnt := 0, periods := 0, onOff := false,
    inter := 0, lower := false, delay := 0, wait := 0, smPower := false, carDetPin := false, carDet := false, irIn := true }

/-- The Magicbus Module (spec/65_magicbus.md R744 to R762). -/
structure Mbus where
  ctl1 : Word
  ctl2 : Word
  dmaStart : Word
  /-- DMALENGTH[19:2] and DMACNT[19:2]. -/
  dmaLen : BitVec 18
  dmaCnt : BitVec 18
  /-- The DMA has reached the end of a one-time buffer. -/
  dmaDone : Bool
  txHold : Word
  txSwap : Bool
  txFull : Bool
  /-- The Transmit Shift Register, the bit on the line next in bit 31; the character in it is sent in Swap Mode; it is being sent. -/
  shift : Word
  shiftSwap : Bool
  shiftBusy : Bool
  /-- The Transmit Bit Counter: the bits sent (R750). -/
  bits : BitVec 6
  /-- The baud rate generator (R751): the down counter of half a baud clock, and the level of that clock before CLKPOL. -/
  baud : BitVec 8
  clk : Bool
  /-- The data on the line (R744, R745). -/
  data : Bool
  /-- The inter-packet delay counter (R750), and how far a shut down has come (R747), both in half baud clocks. -/
  delay : BitVec 9
  closing : BitVec 3
  /-- The Receive Shift Register and the Receive Bit Counter (R746). -/
  rxShift : Word
  rxBits : BitVec 6
  rxHold : Word
  rxFull : Bool
  /-- The Command Word detector: the Command Word clocks since the last clear (R746). -/
  detect : BitVec 2
  /-- MBUSON: the module is enabled or has not shut down yet (R747). -/
  on : Bool
  /-- The module is a slave (R756). -/
  slave : Bool
  /-- Level of the MBUSINT pin. -/
  pin : Bool
  /-- What the outside world drives on MBUSCLK and MBUSDATA, and the levels of the two lines that the receiver saw last. -/
  clkPin : Bool
  dataPin : Bool
  clkSeen : Bool
  dataSeen : Bool
deriving DecidableEq, Repr

/-- Power On Reset (R755 to R762). -/
def Mbus.reset : Mbus :=
  { ctl1 := 0, ctl2 := 0, dmaStart := 0, dmaLen := 0, dmaCnt := 0, dmaDone := false, txHold := 0, txSwap := false,
    txFull := false, shift := 0, shiftSwap := false, shiftBusy := false, bits := 0, baud := 0, clk := false, data := false, delay := 0,
    closing := 0, rxShift := 0, rxBits := 0, rxHold := 0, rxFull := false, detect := 0, on := false, slave := false, pin := false,
    clkPin := false, dataPin := false, clkSeen := false, dataSeen := false }

/-- The Power Module (spec/66_power.md R790 to R807). -/
structure Power where
  /-- Power Control (the pin bits 31:29 are not stored). -/
  ctl : Word
  /-- Levels of ONBUTN (as the chip sees it, and at the pin), PWRINT, PWROK, VCC3. -/
  onbutn : Bool
  onbutnPin : Bool
  pwrint : Bool
  pwrok : Bool
  vcc3 : Bool
  /-- The Stop Timer counter (R802). -/
  stp : BitVec 4
  /-- The RESET flip-flop (R794). -/
  resetFF : Bool
  /-- ENSYSCLK: the internal clocks run (R796). -/
  ensys : Bool
  /-- The core clock is stopped by STOPCPU (R800). -/
  stopped : Bool
deriving DecidableEq, Repr

/-- The values at the core's first fetch: the columns of R805 with PWRCS and VCCON set by the ONBUTN press (R795); PWROK and VCC3
are high, ONBUTN is released. -/
def Power.reset : Power :=
  { ctl := 0x7, onbutn := false, onbutnPin := false, pwrint := false, pwrok := true, vcc3 := true, stp := 0, resetFF := false,
    ensys := true, stopped := false }

/-- The SIB Module (spec/67_sib.md R840 to R877). -/
structure Sib where
  size : Word
  sndRxStart : Word
  sndTxStart : Word
  telRxStart : Word
  telTxStart : Word
  ctl : Word
  sndTxHold : Word
  sndRxHold : Word
  telTxHold : Word
  telRxHold : Word
  sf0aux : Word
  sf1aux : Word
  sf0stat : Word
  sf1stat : Word
  /-- SIB DMA Control without the two pointers. -/
  dmaCtl : Word
  sndPtr : BitVec 12
  telPtr : BitVec 12
  sndDone : Bool
  telDone : Bool
  /-- The DMA requests that a complete holding word raised (R856). -/
  sndRxReq : Bool
  sndTxReq : Bool
  telRxReq : Bool
  telTxReq : Bool
  /-- The sample rate down counters, the sample they have scheduled, and whether the subframe on the line carries it (R844). -/
  sndRate : BitVec 7
  telRate : BitVec 7
  sndDue : Bool
  telDue : Bool
  sndNow : Bool
  telNow : Bool
  /-- The start of the sample counters (R855): 0 before the enable command is sent, 1 while it is, 2 from the next frame on. -/
  sndRun : BitVec 2
  telRun : BitVec 2
  /-- The frame number modulo 4 within a holding word (R850). -/
  sndFrame : BitVec 2
  telFrame : BitVec 2
  /-- The level of SIBMCLK while it is an output, and the counter whose most significant bit is SIBSCLK (R870). -/
  mclk : Bool
  sclkCnt : BitVec 4
  /-- The bit of the frame on the line, 0 to 127 (R842); SIBSYNC and SIBDOUT (R841, R843). -/
  pos : BitVec 7
  sync : Bool
  dout : Bool
  /-- The 64-bit shift register; a frame has started since the module was enabled. -/
  shift : BitVec 64
  framed : Bool
  /-- The received valid flags. -/
  sndValid : Bool
  telValid : Bool
  /-- What the outside world drives on SIBDIN and SIBIRQ, and the level of SIBIRQ that the chip saw last. -/
  din : Bool
  irqPin : Bool
  irq : Bool
deriving DecidableEq, Repr

/-- Power On Reset (R860 to R877). -/
def Sib.reset : Sib :=
  { size := 0, sndRxStart := 0, sndTxStart := 0, telRxStart := 0, telTxStart := 0, ctl := 0, sndTxHold := 0, sndRxHold := 0,
    telTxHold := 0, telRxHold := 0, sf0aux := 0, sf1aux := 0, sf0stat := 0, sf1stat := 0, dmaCtl := 0, sndPtr := 0, telPtr := 0,
    sndDone := false, telDone := false, sndRxReq := false, sndTxReq := false, telRxReq := false, telTxReq := false,
    sndRate := 0, telRate := 0, sndDue := false, telDue := false, sndNow := false, telNow := false, sndRun := 0, telRun := 0,
    sndFrame := 0, telFrame := 0, mclk := false, sclkCnt := 7, pos := 126, sync := false, dout := false, shift := 0,
    framed := false, sndValid := false, telValid := false, din := false, irqPin := false, irq := false }

/-- The SPI Module (spec/68_spi_timer_uart.md R910 to R917). -/
structure Spi where
  ctl : Word
  txHold : BitVec 16
  txFull : Bool
  shift : BitVec 16
  shiftBusy : Bool
  rxHold : BitVec 16
  /-- The Baud Rate Generator: the down counter of half a SPICLK period (R911); the half periods of the character done. -/
  baud : BitVec 4
  halves : BitVec 6
  /-- The levels of SPICLK and SPIOUT. -/
  clk : Bool
  out : Bool
  /-- The inter-character delay counter, in half periods of SPICLK. -/
  delay : BitVec 5
  /-- The module is enabled or has not shut down yet (R916). -/
  on : Bool
deriving DecidableEq, Repr

/-- Power On Reset (R915). -/
def Spi.reset : Spi :=
  { ctl := 0, txHold := 0, txFull := false, shift := 0, shiftBusy := false, rxHold := 0, baud := 0, halves := 0, clk := false, out := false,
    delay := 0, on := false }

/-- The Timer Module (spec/68_spi_timer_uart.md R920 to R927). -/
structure Timer where
  rtc : BitVec 40
  /-- The count before the last tick, which a read that meets the tick may still see (R922, U-RTC). -/
  rtcOld : BitVec 40
  rtcTorn : Bool
  alarm : BitVec 40
  ctl : Word
  perCnt : BitVec 16
  perOld : BitVec 16
  perTorn : Bool
  perVal : BitVec 16
  /-- The phase of the 61 us test reference of TESTC8MS (R926). -/
  phase : Bool
  /-- The level of the 32.768 kHz clock, which BC32K buffers (R920). -/
  c32k : Bool
deriving DecidableEq, Repr

/-- Power On Reset (R921, R924 to R927). -/
def Timer.reset : Timer :=
  { rtc := 0, rtcOld := 0, rtcTorn := false, alarm := 0, ctl := 0, perCnt := 0, perOld := 0, perTorn := false, perVal := 0,
    phase := false, c32k := false }

/-- A received character with its error flags (R938). -/
structure UartChar where
  data : Byte
  frameErr : Bool
  parityErr : Bool
  isBreak : Bool
  overrun : Bool
deriving DecidableEq, Repr

/-- One UART (spec/68_spi_timer_uart.md R930 to R956). -/
structure Uart where
  ctl1 : Word
  baud : Word
  dmaStart : Word
  dmaLen : BitVec 16
  dmaCnt : BitVec 16
  dmaDone : Bool
  /-- The Transmit Holding Register: BREAK in bit 8, TXDATA in bits 7:0. -/
  txHold : BitVec 9
  txFull : Bool
  /-- The Transmit Shift Register: the bits of the character that have not left it, the one on the line first; it sends a BREAK. -/
  shift : List Bool
  sendsBreak : Bool
  /-- The baud rate counter (R932): down counter of UARTCLK, the sixteenth of the baud period; the UARTCLK periods since the bit on the
  line began, up to 7. -/
  baudCnt : BitVec 11
  phase : BitVec 4
  pulse : BitVec 3
  /-- The Receive Shift Register: the bits received of the character in progress, the last first; `none` between characters. -/
  rxShift : Option (List Bool)
  /-- Sixteenths of the baud period until the next bit is sampled; the UARTCLK periods that a low pulse still lasts (R935); the level of the
  receive line at the last UARTCLK. -/
  rxWait : BitVec 5
  stretch : BitVec 16
  rxSeen : Bool
  /-- PRXHOLD and RXHOLD. -/
  prx : Option UartChar
  rxHold : Byte
  rxFull : Bool
  /-- The receiver waits: a BREAK was received and the line has not returned to marking, or RXHOLD was not read (R939). -/
  markWait : Bool
  breakRead : Bool
  /-- UARTON; the UARTCLK periods of a shut down that have passed (R931). -/
  on : Bool
  closing : BitVec 2
deriving DecidableEq, Repr

/-- Power On Reset (R950 to R956). -/
def Uart.reset : Uart :=
  { ctl1 := 0x40, baud := 0, dmaStart := 0, dmaLen := 0, dmaCnt := 0, dmaDone := false, txHold := 0, txFull := false, shift := [],
    sendsBreak := false, baudCnt := 0, phase := 0, pulse := 0, rxShift := none, rxWait := 0, stretch := 0, rxSeen := true, prx := none,
    rxHold := 0, rxFull := false, markWait := false, breakRead := false, on := false, closing := 0 }

/-- The CHI Module (spec/62_chi.md R570 to R600). -/
structure Chi where
  ctl : Word
  ptrEn : Word
  rxPtrA : Word
  rxPtrB : Word
  txPtrA : Word
  txPtrB : Word
  /-- CHI Size: the control bits and CHISIZE (CHIDMAPTR is `dmaPtr`). -/
  size : Word
  rxStart : Word
  txStart : Word
  txHoldA : Word
  txHoldB : Word
  rxHoldA : Word
  rxHoldB : Word
  txShift : Byte
  rxShift : Byte
  /-- The bit on CHIDOUT, and whether CHIDOUT is driven in the current transmit timeslot. -/
  dout : Bool
  txDriven : Bool
  dmaPtr : BitVec 12
  dmaDone : Bool
  /-- The half-frame B is meant. -/
  cpuSelB : Bool
  /-- RX not read since its last completion, TX not written since it was last emptied (R582). -/
  rxUnreadA : Bool
  rxUnreadB : Bool
  txUsedA : Bool
  txUsedB : Bool
  /-- CHICLK as generated (R571); CHIFS as generated: its counter of CHICLK edges, which runs, and its level before CHITXFSPOL. -/
  clk : Bool
  fsRun : Bool
  fsCnt : BitVec 11
  fsOut : Bool
  /-- CHIFS as sampled last since ENCHI was set. -/
  fsSeen : Option Bool
  /-- The receive and transmit sync delay counters, in CHICLK edges (R577). -/
  rxSync : Option (BitVec 11)
  txSync : Option (BitVec 11)
  /-- The receiver, the transmitter is in a frame; the CHICLK edges until its next bit; the bit of the timeslot. -/
  rxRun : Bool
  rxGap : BitVec 2
  rxBit : BitVec 3
  txRun : Bool
  txGap : BitVec 2
  txBit : BitVec 3
  /-- The channel counters: half-frame and timeslot in it (R577). -/
  rxB : Bool
  rxSlot : BitVec 5
  txB : Bool
  txSlot : BitVec 5
  /-- The receiver, the transmitter has ended half-frame A, B, whose interrupt is still to come. -/
  rxEndA : Bool
  rxEndB : Bool
  txEndA : Bool
  txEndB : Bool
  /-- Half-frame A, B is that of a frame in which the direction with a count of -1 does not run (R574). -/
  aloneA : Bool
  aloneB : Bool
  /-- The DMA requests of the oldest half-frame of `reqs`, the half-frames whose requests are pending, oldest first (R580, R521). -/
  rxReq : Bool
  txReq : Bool
  reqs : List ChiJob
deriving DecidableEq, Repr

/-- Power On Reset (R590 to R600). -/
def Chi.reset : Chi :=
  { ctl := 0, ptrEn := 0, rxPtrA := 0, rxPtrB := 0, txPtrA := 0, txPtrB := 0, size := 0, rxStart := 0, txStart := 0, txHoldA := 0,
    txHoldB := 0, rxHoldA := 0, rxHoldB := 0, txShift := 0, rxShift := 0, dout := false, txDriven := false, dmaPtr := 0,
    dmaDone := false, cpuSelB := false, rxUnreadA := false, rxUnreadB := false, txUsedA := false, txUsedB := false, clk := false,
    fsRun := false, fsCnt := 0, fsOut := false, fsSeen := none, rxSync := none, txSync := none, rxRun := false, rxGap := 0, rxBit := 0,
    txRun := false, txGap := 0, txBit := 0, rxB := false, rxSlot := 0, txB := false, txSlot := 0, rxEndA := false, rxEndB := false,
    txEndA := false, txEndB := false, aloneA := false, aloneB := false, rxReq := false, txReq := false, reqs := [] }

/-- The Video Module (spec/69_video.md R1002 to R1027). -/
structure Video where
  /-- Video Control 1 (LINECNT is `line`) to 14. -/
  vc1 : Word
  vc2 : Word
  vc3 : Word
  vc4 : Word
  vc5 : Word
  vc6 : Word
  vc7 : Word
  vc8 : Word
  vc9 : Word
  vc10 : Word
  vc11 : Word
  vc12 : Word
  vc13 : Word
  vc14 : Word
  /-- The Line Counter and the DF Counter (R1002), and the level of DF. -/
  line : BitVec 10
  dfCnt : BitVec 8
  df : Bool
  /-- Frozen by ENFREEZEFRAME until that is cleared and ENVID toggled (R1004). -/
  frozen : Bool
  /-- The Baud Rate Counter and the level of the baud clock (R1002). -/
  baudCnt : BitVec 5
  baud : Bool
  /-- The baud clocks of the line that have begun, up to VIDRATE + 1; the line is the first of its frame. -/
  pos : BitVec 11
  first : Bool
  /-- The Horizontal Counter: the outputs of the line that are still to come, and whether the line is being shifted (R1002). -/
  horz : BitVec 9
  shifting : Bool
  /-- The outputs FRAME, LOAD, CP, VDAT, VIDDONE (R1000). -/
  frame : Bool
  load : Bool
  cp : Bool
  vdat : BitVec 4
  done : Bool
  /-- The CLK periods until VIDDONE, 0 when it is not due; the lines after FRAME that are still without VIDDONE (R1003). -/
  doneCnt : BitVec 11
  mask : BitVec 4
  /-- The shades taken from FIFOHI and FIFOLO that are not yet shifted out, the next first (R1009, R1013). -/
  shadesHi : List (BitVec 4)
  shadesLo : List (BitVec 4)
  /-- The bank latched for the frame and the two address counters (R1008). -/
  bank : BitVec 12
  addrHi : BitVec 16
  addrLo : BitVec 16
  lowerNext : Bool
  /-- The FIFOs, the next word first (R1009). -/
  fifoA : List Word
  fifoB : List Word
  fifoHi : List Word
  fifoLo : List Word
  /-- The dithering line and frame counters, modulo 3, 4, 5 and 7 (R1013). -/
  l3 : BitVec 3
  l4 : BitVec 3
  l5 : BitVec 3
  l7 : BitVec 3
  f3 : BitVec 3
  f4 : BitVec 3
  f5 : BitVec 3
  f7 : BitVec 3
deriving DecidableEq, Repr

/-- Power On Reset (R1020 to R1027). -/
def Video.reset : Video :=
  { vc1 := 0, vc2 := 0, vc3 := 0, vc4 := 0, vc5 := 0, vc6 := 0, vc7 := 0, vc8 := 0, vc9 := 0, vc10 := 0, vc11 := 0, vc12 := 0,
    vc13 := 0, vc14 := 0, line := 0, dfCnt := 0, df := false, frozen := false, baudCnt := 0, baud := true, pos := 0,
    first := false, horz := 0, shifting := false, frame := false, load := false, cp := false, vdat := 0, done := false, doneCnt := 0,
    mask := 0, shadesHi := [], shadesLo := [], bank := 0, addrHi := 0, addrLo := 0,
    lowerNext := false, fifoA := [], fifoB := [], fifoHi := [], fifoLo := [], l3 := 0, l4 := 0, l5 := 0, l7 := 0, f3 := 0, f4 := 0,
    f5 := 0, f7 := 0 }

/-- Every module outside the core (R60, R61). -/
structure Dev where
  biu : Biu
  intr : Intr
  /-- Clock Control (R540). -/
  clk : Word
  /-- SIU Test (R526). -/
  siuTest : Word
  io : Io
  ir : Ir
  mbus : Mbus
  power : Power
  sib : Sib
  spi : Spi
  timer : Timer
  uartA : Uart
  uartB : Uart
  chi : Chi
  video : Video
  /-- The DMA transaction in progress, during which the core is idle (R30, R524). -/
  dma : Option DmaJob
  /-- DGRNT* is asserted: the bus is granted to the external master (R241). -/
  granted : Bool
deriving DecidableEq, Repr

/-- Power On Reset of every module (R1060): Clock Control has CSERSEL = 1 (R540). -/
def Dev.reset (testAiu : Bool) : Dev :=
  { biu := Biu.reset testAiu, intr := Intr.reset, clk := 0x80, siuTest := 0, io := Io.reset, ir := Ir.reset, mbus := Mbus.reset,
    power := Power.reset, sib := Sib.reset, spi := Spi.reset, timer := Timer.reset, uartA := Uart.reset, uartB := Uart.reset,
    chi := Chi.reset, video := Video.reset, dma := none, granted := false }

end Sys2Proof.Machine
end

