-- ==== Sys2Proof/Machine/State.lean ====
section
/-!
DEFINITION. The state of the machine as plain data: everything that spec/10_state.md gives it, the parameters of a run
(spec/92_eei_decisions.md), the agenda of the agents that are not the core, and the reasons a step can stop.
-/

namespace Sys2Proof.Machine

/-! ## The processor core -/

/-- One TLB entry (R50): VPN, PID, PFN, N, D, V, G. -/
structure TlbEntry where
  vpn : BitVec 20
  pid : BitVec 6
  pfn : BitVec 20
  n : Bool
  d : Bool
  v : Bool
  g : Bool
deriving DecidableEq, Repr

/-- The registers of coprocessor 0 (R35 to R44). Random has no stored value (R37, D6), PRId is `Config.pridValue` (R45), and the
bits IP[7:2] of Cause are the live inputs (R474). -/
structure Cp0 where
  /-- P in bit 31, Index in bits 12:8. -/
  index : Word
  /-- PFN, N, D, V, G in bits 31:8. -/
  entryLo : Word
  /-- PTEBase in bits 31:21, BadVPN in bits 20:2. -/
  context : Word
  badVAddr : Word
  /-- VPN and PID in bits 31:6. -/
  entryHi : Word
  status : Word
  /-- Cause.BD, Cause.CE, Cause.Sw, Cause.ExcCode. -/
  bd : Bool
  ce : BitVec 2
  sw : BitVec 2
  exc : BitVec 5
  epc : Word
deriving DecidableEq, Repr

/-- One entry of the write buffer (R54): the aligned physical word address, the bus word, the enabled byte lanes. -/
structure WbEntry where
  pa : Word
  data : Word
  be : BitVec 4
deriving DecidableEq, Repr

/-- What a recent coprocessor 0 write replaced (R1082). -/
inductive Cp0Write where
  | entryHi (old : Word)
  | entryLo (old : Word)
  | index (old : Word)
  | status (old : Word)
  /-- `tlbwi`, `tlbwr`: the entry written and what it held. -/
  | tlb (i : BitVec 5) (old : TlbEntry)
  /-- `tlbp`: Index before it. -/
  | probe (oldIndex : Word)
  /-- `tlbr`: EntryHi and EntryLo before it. -/
  | tlbRead (oldHi oldLo : Word)
deriving DecidableEq, Repr

/-- Which load a loaded register comes from: `lwl` and `lwr` on one register merge (R1080). -/
inductive LoadKind where
  | left
  | right
  | other
deriving DecidableEq, Repr

/-- What one of the last executed instructions left for the hazards of R1080 to R1082. -/
inductive Trace where
  | plain
  /-- A branch that was not taken: its delay slot goes on where it would (R400). -/
  | untaken
  /-- A load or a move from a coprocessor wrote `rt`, which held `old`. -/
  | loaded (rt : Reg) (old : Word) (kind : LoadKind)
  /-- `mfhi` or `mflo` wrote `rd`; `used` when an instruction has read that value since. -/
  | hiLoRead (rd : Reg) (used : Bool)
  /-- The instruction in progress will have overwritten that `rd`, unused; by a load when `late`. -/
  | hiLoOver (rd : Reg) (late : Bool)
  /-- A load has overwritten it, and the next instruction may still read what it held (R1080). -/
  | hiLoLate (rd : Reg)
  | cp0 (w : Cp0Write)
deriving DecidableEq, Repr

/-- A line of the instruction cache (R51): the tag, bits 31:12 of the physical address, and four words. -/
structure ILine where
  tag : BitVec 20
  word0 : Word
  word1 : Word
  word2 : Word
  word3 : Word
deriving DecidableEq, Repr

/-- A line of the data cache (R52): the tag, bits 31:8 of the address of the place that it copies (R125, log entry 16), and one word. -/
structure DLine where
  tag : BitVec 24
  word : Word
deriving DecidableEq, Repr

/-- The two ways of a set of the data cache (R52). -/
structure DSet where
  way0 : Option DLine
  way1 : Option DLine
deriving DecidableEq, Repr

/-- A step of the core that waits for the bus: for its fetch, or with the word it has fetched (R188, R216, R241). -/
inductive Pending where
  | none
  | fetch
  | exec (w : Word)
deriving DecidableEq, Repr

/-! ## Parameters of a run (spec/92_eei_decisions.md) -/

/-- The part (R2). -/
inductive Variant where
  | tmpr3911
  | tmpr3912
deriving DecidableEq, Repr

/-- What stands on a chip select or in a card slot (D22). -/
inductive Attach where
  | nothing
  | rom
  | ram
deriving DecidableEq, Repr

/-- The memory installed in a bank: the row of Table 4.4.2 (R187, R221, D21), counted from 0, `none` for an empty bank; whether its devices
are HDRAM (R222). -/
structure Bank where
  row : Option (Fin 20)
  hdram : Bool
deriving DecidableEq, Repr

/-- The words that a refill of a cache reads in one burst (R51, R52: 16 to 128 bytes; `one` when the burst refill of the data cache is
disabled). -/
inductive Burst where
  | one
  | four
  | eight
  | sixteen
  | thirtyTwo
deriving DecidableEq, Repr

/-- The parameters that are fixed for a run; no step changes them. -/
structure Board where
  variant : Variant
  /-- The ENDIAN strap (R100, D2). -/
  bigEndian : Bool
  /-- The TESTAIU strap: a 32-bit boot ROM port (R217). -/
  testAiu : Bool
  /-- `RF[1:0]` (D28). -/
  rf : BitVec 2
  /-- `CP0_HAZARD_SLOTS` (R1082, D35). -/
  hazardSlots : Nat
  /-- The refill bursts of the two caches, which software sets by means that no source describes (R51 to R53, log entry 16). -/
  iBurst : Burst
  dBurst : Burst
  /-- The data cache has 1 Kbyte, 256 lines (R10, R52), or the 128 lines that R52 counts (log entry 16). -/
  dKbyte : Bool
  bank0 : Bank
  bank1 : Bank
  cs0 : Attach
  cs1 : Attach
  cs2 : Attach
  cs3 : Attach
  mcs0 : Attach
  mcs1 : Attach
  mcs2 : Attach
  mcs3 : Attach
  card1 : Attach
  card2 : Attach
deriving DecidableEq, Repr

/-- The board the reset state stands on (DESIGN CHOICE, log entry 4): a little-endian TMPR3912 with a boot ROM on CS0 and 4 Mbyte of
32-bit DRAM in Bank 0, the row "21, 19, 17:9 | 21, 20, 18, 8:2" of R221; both caches refill 16 bytes, and the data cache has 1 Kbyte. -/
def Board.default : Board :=
  { variant := .tmpr3912, bigEndian := false, testAiu := true, rf := 0, hazardSlots := 2,
    iBurst := .four, dBurst := .four, dKbyte := true, bank0 := { row := some 6, hdram := false }, bank1 := { row := none, hdram := false },
    cs0 := .rom, cs1 := .nothing, cs2 := .nothing, cs3 := .nothing, mcs0 := .nothing, mcs1 := .nothing, mcs2 := .nothing,
    mcs3 := .nothing, card1 := .nothing, card2 := .nothing }

/-! ## The agents that are not the core (R30, D20) -/

/-- An input pin the outside world drives. -/
inductive Pin where
  | pwrok
  | onbutn
  | pwrint
  | vcc3
  | sibirq
  | sibdin
  | mbusint
  | mbusclk
  | mbusdata
  | cardet
  | irin
  | io (i : Fin 7)
  | mio (j : BitVec 5)
deriving DecidableEq, Repr

/-- What moves next. The agenda is data: the order in which the agents of R30 take their steps, which no source fixes. -/
inductive Event where
  /-- The core takes its step (R400); it gives the bus up after the next transaction, and goes on in a later step (R128). -/
  | core
  | coreBus
  /-- The write buffer performs its oldest entry (R120). -/
  | drain
  /-- The SIU grants the pending DMA request of highest priority (R521). -/
  | dmaGrant
  /-- One edge of the 32.768 kHz clock; one period of TIMERCLK, IRCLK, CLK, VIDCLK, a UARTCLK (false UARTA), SPIMCLK, MBUSMCLK. -/
  | c32k
  | timerClk
  | irClk
  | sysClk
  | vidClk
  | uartClk (b : Bool)
  | spiClk
  | mbusClk
  /-- One edge of the internal SIB Master Clock, of the internal CHICLK (R534). -/
  | sibMclk
  | chiClk
  /-- The codec input clips (R858). -/
  | sibClip (left : Bool) (right : Bool)
  /-- The clock of the core stops after STOPCPU was set (R800). -/
  | coreStops
  /-- ENSYSCLK is asserted at the end of its delay (R796). -/
  | enSysclk
  /-- CPURES* is asserted and released (R1061); PON* is asserted (R794, R1060). -/
  | cpuReset
  | powerOnReset
  /-- The external bus master writes external memory (R241). -/
  | masterWrite (pa : Word) (data : Word) (be : BitVec 4)
  /-- A pin changes; a debouncer passes its input on (R682, R805). -/
  | setPin (p : Pin) (level : Bool)
  | debounceIo (i : Fin 7)
  | debounceOnbutn
deriving DecidableEq, Repr

/-! ## The state -/

/-- The memory: pairs of a cell key and a byte, in the canonical form of `Mem.wf` (Sys2Proof/Machine/Ops.lean). -/
abbrev Mem := List Host.Cell

/-- The whole machine. -/
structure State where
  /-- `x[0]` to `x[31]` (R31). Entry 0 is never read. -/
  gpr : Vector Word 32
  /-- The accumulator (R33). -/
  hi : Word
  lo : Word
  /-- R32, R400. -/
  pc : Word
  npc : Word
  ds : Bool
  cp0 : Cp0
  /-- R50. -/
  tlb : Vector TlbEntry 32
  /-- The write buffer, oldest entry first (R54). -/
  wb : List WbEntry
  /-- The traces of the last executed instructions, newest first (R1080 to R1082). -/
  recent : List Trace
  /-- The instruction cache, direct mapped by bits 11:4 of the physical address (R51). -/
  icache : Vector (Option ILine) 256
  /-- The data cache, its sets selected by bits 8:2 of the physical address, or 7:2 where it has 128 lines (R52). -/
  dcache : Vector DSet 128
  /-- The core is in the middle of an instruction. -/
  pending : Pending
  /-- No instruction has executed since reset: Random still reads 31 (R37, R321). -/
  fresh : Bool
  mem : Mem
  dev : Dev
  board : Board
  /-- What moves next; when it is empty the core does. -/
  agenda : List Event
  /-- The draw counter of the free values (the model's own field, log entry 8). -/
  draws : Nat
deriving DecidableEq, Repr

/-! ## How a step can stop -/

/-- The machine stops with a fault: nothing does. An access that nothing acknowledges keeps the core waiting (R188, U-BIUHANG), and
what the spec calls a fault is an exception that is taken. -/
inductive Fault where
deriving DecidableEq, Repr

/-- The model claims nothing about the step. Every one is safe: the run ends where the hardware goes on. -/
inductive Refusal where
  /-- An instruction without a meaning: raised by exec, for no instruction of this model. Safe. -/
  | notModelled (mnemonic : String)
  /-- `cache`, `sdbbp`, `deret`, `lwcz`, `swcz`, `bczfl`, `bcztl` (R291, D31). Safe. -/
  | undescribedEncoding
  /-- A coprocessor 1 to 3 operation with CUz = 1 (R442 to R445, R449, D31). Safe. -/
  | coprocessorAbsent
  /-- `bc1t`, `bc1f`, `bc2t`, `bc2f` with CUz = 1: the condition input is not described (R447). Safe. -/
  | conditionAbsent
  /-- `mfc0`, `mtc0` on a register number that no rule lists (R321, R326, D3). Safe. -/
  | cp0Register
  /-- A non-zero unused field (R292, U-MBZ). Raised by step. Safe. -/
  | unusedField
  /-- A jump or branch in a delay slot (R401, U-BRDS). Safe. -/
  | branchInDelaySlot
  /-- `jalr` with rd = rs (R405, U-JALRSAME). Safe. -/
  | jalrSameRegister
  /-- A linking branch on register 31 (R412, R413, R1201, R1202, U-BALRS31). Safe. -/
  | linkOnLinkRegister
  /-- Execution runs off the top of the address space (R32, R400, U-PCWRAP). Raised by step. Safe. -/
  | pcWrap
  /-- HI or LO is written within two instructions after `mfhi`/`mflo` and the value read was used in between: the spec refuses
  such a run (R1081, D33, U-HILO). Raised by those writes. Safe. -/
  | hiLoHazard
  /-- A function register is accessed by less than a word, or through a cached address (R104, R131, D10, D11). Safe. -/
  | frNarrow
  | frCached
  /-- No register at the offset (R522, D27). Safe. -/
  | frOffset
  /-- A write sets a test bit whose effect is not described (U-TESTBITS). Safe. -/
  | testBit
  /-- A divider value outside its table (R540, U-CLKDIV). Safe. -/
  | clockDivider
  /-- A CHI configuration register is changed while the module is enabled (R585, U-CHICFG). Safe. -/
  | chiConfig
  /-- Both pulse options, or both DMA directions, of a UART (R935, R940, U-UART1, U-UART2). Safe. -/
  | uartPulse
  | uartDma
  /-- A re-mapper with a MASK outside its table, or two that overlap (R195, U-RMAPMASK, U-RMAPOVERLAP). Safe. -/
  | remapMask
  | remapOverlap
  /-- An access with an ACCVAL that must not be used (R210, R213, R215, U-ACCVAL0). Safe. -/
  | accessTime
  /-- A bank whose settings are not those of the installed memory, or that software has not initialised (R187, U-MEMGEOM; R224, R235,
  R1071, U-RAMINIT). Safe. -/
  | ramGeometry
  | ramNotReady
  /-- A read where no device answers (R188, D22). Safe. -/
  | noDevice
  /-- A read of an SDRAM Mode Register window (R186, U-SDMODE-RD). Safe. -/
  | sdramModeRead
  /-- A DMA read that the watch dog times out (N21-7). Safe. -/
  | dmaTarget
deriving DecidableEq, Repr

/-! ## Reset -/

/-- TLB entry i after reset: VPN 0x80000 + i, which no mapped address has (R1070); DESIGN CHOICE, log entry 3. -/
def tlbReset : Vector TlbEntry 32 :=
  Vector.ofFn fun i => { vpn := BitVec.ofNat 20 (0x80000 + i.val), pid := 0, pfn := 0, n := false, d := false, v := false, g := false }

/-- Coprocessor 0 after reset (R70): BEV = 1, TS = KUc = IEc = 0; the rest zero (DESIGN CHOICE, log entry 2). -/
def Cp0.reset : Cp0 :=
  { index := 0, entryLo := 0, context := 0, badVAddr := 0, entryHi := 0, status := 0x00400000, bd := false, ce := 0, sw := 0, exc := 0,
    epc := 0 }

/-- Caches that hold nothing (R53; DESIGN CHOICE, log entry 16). -/
def icacheReset : Vector (Option ILine) 256 := Vector.replicate 256 none
def dcacheReset : Vector DSet 128 := Vector.replicate 128 { way0 := none, way1 := none }

/-- The machine at the first fetch of the core after Power On Reset (R70, R1060, R1062). -/
def State.reset : State :=
  { gpr := Vector.replicate 32 0, hi := 0, lo := 0, pc := 0xBFC00000, npc := 0xBFC00004, ds := false, cp0 := Cp0.reset,
    tlb := tlbReset, wb := [], recent := [], icache := icacheReset, dcache := dcacheReset, pending := .none, fresh := true,
    mem := [], dev := Dev.reset true, board := Board.default, agenda := [], draws := 0 }

end Sys2Proof.Machine
end

