-- ==== Sys2Proof/Machine/Intr.lean ====
section
/-!
DEFINITION. The Interrupt Module (spec/63_interrupt.md): setting, clearing and enabling the status latches, the high priority
encoder, and the signals IRQLOW and IRQHIGH to the core.
-/

namespace Sys2Proof.Machine

/-- The status latch of register `n` (1 to 5) is set in the bits of `mask`, whether enabled or not (R633). -/
def Intr.set (i : Intr) (n : Nat) (mask : Word) : Intr :=
  match n with
  | 1 => { i with st1 := i.st1 ||| mask }
  | 2 => { i with st2 := i.st2 ||| mask }
  | 3 => { i with st3 := i.st3 ||| mask }
  | 4 => { i with st4 := i.st4 ||| mask }
  | _ => { i with st5 := i.st5 ||| mask }

/-- Bit `b` of register `n` is set when `c` holds. -/
def Intr.setIf (i : Intr) (c : Bool) (n b : Nat) : Intr := if c then i.set n (bitMask b) else i

/-- A write of `v` to Clear Interrupt `n` (R636). -/
def Intr.clear (i : Intr) (n : Nat) (v : Word) : Intr :=
  match n with
  | 1 => { i with st1 := i.st1 &&& ~~~v }
  | 2 => { i with st2 := i.st2 &&& ~~~v }
  | 3 => { i with st3 := i.st3 &&& ~~~v }
  | 4 => { i with st4 := i.st4 &&& ~~~v }
  | _ => { i with st5 := i.st5 &&& ~~~v }

/-- GLOBALEN (R650). -/
def Intr.globalEn (i : Intr) : Bool := bitOf i.en6 18

/-- Some bit is set with its enable bit (R635). -/
def anyGated (st en : Word) : Bool := en != 0 && (st &&& en) != 0

/-- Some status bit is set with its enable bit (R635). -/
def Intr.anyEnabled (i : Intr) : Bool :=
  anyGated i.st1 i.en1 || anyGated i.st2 i.en2 || anyGated i.st3 i.en3 || anyGated i.st4 i.en4 || anyGated i.st5 i.en5

/-- The high priority signals H[15:0] (R638, R647). -/
def Intr.highRaw (i : Intr) : BitVec 16 :=
  let on (w : Word) (mask : Word) : Bool := (w &&& mask) != 0
  BitVec.ofBoolListLE
    [false,                                                         -- 0: the standard interrupt handler
     on i.st5 0x00000081,                                           -- 1: IOPOSINT[0], IONEGINT[0]
     on i.st1 0x08000000,                                           -- 2: CHIDMACNTINT
     on i.st1 0x00020000,                                           -- 3: TELDMACNTINT
     on i.st1 0x00040000,                                           -- 4: SNDDMACNTINT
     on i.st2 0x00000020,                                           -- 5: MBUSDMAFULLINT
     on i.st4 0x00000003 || on i.st5 0x00000060,                    -- 6: MFIONEGINT[1:0], IONEGINT[6:5]
     on i.st4 0x000F0000,                                           -- 7: MFIONEGINT[19:16]
     on i.st3 0x00000003 || on i.st5 0x00003000,                    -- 8: MFIOPOSINT[1:0], IOPOSINT[6:5]
     on i.st3 0x000F0000,                                           -- 9: MFIOPOSINT[19:16]
     on i.st2 0x00200000,                                           -- 10: UARTBRXINT
     on i.st2 0x80000000,                                           -- 11: UARTARXINT
     on i.st2 0x0000000C,                                           -- 12: MBUSPOSINT, MBUSNEGINT
     on i.st5 0x20000000,                                           -- 13: PERINT
     on i.st5 0x40000000,                                           -- 14: ALARMINT
     on i.st5 0x03000000]                                           -- 15: POSPWROKINT, NEGPWROKINT

/-- HG[15:0]: the signals that PRIORITYMASK passes (R638). -/
def Intr.highMasked (i : Intr) : BitVec 16 := i.highRaw &&& i.en6.extractLsb' 0 16

/-- The number of the highest bit set, 0 if there is none. -/
def topBit (v : BitVec 16) : Nat → Nat
  | 0 => 0
  | k + 1 => if v.getLsbD (k + 1) then k + 1 else topBit v k

/-- INTVECT: the highest level pending and masked in, 0 if there is none (R638). -/
def Intr.vector (i : Intr) : BitVec 4 := BitVec.ofNat 4 (topBit i.highMasked 15)

/-- IRQLOW, wired to Int[2] (R639). -/
def Intr.irqLow (i : Intr) : Bool := i.globalEn && i.anyEnabled

/-- IRQHIGH, wired to Int[4] and to CpCond[3] (R639, D29). -/
def Intr.irqHigh (i : Intr) : Bool := i.globalEn && i.highMasked != 0

/-- Interrupt Status 6 as read (R646). -/
def Intr.status6 (i : Intr) : Word :=
  boolAt i.irqHigh 31 ||| boolAt i.irqLow 30 ||| boolAt i.pwrokNmi 29 ||| placed i.vector 2

/-- Reads of `$100` to `$12C`; `none` for another offset (R634, R646, R649, R650). -/
def Intr.read (i : Intr) (off : Nat) : Option Word :=
  match off with
  | 0x100 => some i.st1
  | 0x104 => some i.st2
  | 0x108 => some i.st3
  | 0x10C => some i.st4
  | 0x110 => some i.st5
  | 0x114 => some i.status6
  | 0x118 => some i.en1
  | 0x11C => some i.en2
  | 0x120 => some i.en3
  | 0x124 => some i.en4
  | 0x128 => some i.en5
  | 0x12C => some i.en6
  | _ => none

/-- Writes of `$100` to `$12C` (R636, R646, R649, R650); IRQPRITEST and IRQTEST must not be set (U-TESTBITS). -/
def Intr.write (i : Intr) (off : Nat) (v : Word) : Except Refusal Intr :=
  match off with
  | 0x100 => .ok (i.clear 1 v)
  | 0x104 => .ok (i.clear 2 v)
  | 0x108 => .ok (i.clear 3 v)
  | 0x10C => .ok (i.clear 4 v)
  | 0x110 => .ok (i.clear 5 v)
  | 0x114 => .ok { i with pwrokNmi := bitOf v 29 }
  | 0x118 => .ok { i with en1 := v }
  | 0x11C => .ok { i with en2 := v }
  | 0x120 => .ok { i with en3 := v }
  | 0x124 => .ok { i with en4 := v }
  | 0x128 => .ok { i with en5 := v }
  | 0x12C => if (v &&& 0x00030000) != 0 then .error .testBit else .ok { i with en6 := v &&& 0x0004FFFF }
  | _ => .error .frOffset

end Sys2Proof.Machine
end

