-- ==== Sys2Proof/Machine/Ops.lean ====
section
/-!
DEFINITION. The named operations of the core: memory bytes and words, the general registers, the free values, advancing the program
counter, the hazards, the interrupt inputs, taking an exception and returning from one.
-/

namespace Sys2Proof.Machine

/-! ## Memory (R102) -/

/-- The byte at a cell. A cell that is not listed reads 0 (DESIGN CHOICE, unsafe, log entry 6). -/
def Mem.read : Mem → Nat → Byte
  | [], _ => 0
  | (a, b) :: m, k => if k = a then b else Mem.read m k

/-- Writing a byte keeps the form: cells strictly rising, none that holds 0. -/
def Mem.write : Mem → Nat → Byte → Mem
  | [], k, v => if v = 0 then [] else [(k, v)]
  | (a, b) :: m, k, v =>
    if k < a then (if v = 0 then (a, b) :: m else (k, v) :: (a, b) :: m)
    else if k = a then (if v = 0 then m else (k, v) :: m)
    else (a, b) :: Mem.write m k v

/-- Cells strictly rising from `lo`, none that holds what an unlisted cell reads as. -/
def Mem.wfFrom : Nat → Mem → Bool
  | _, [] => true
  | lo, (a, b) :: m => decide (lo ≤ a) && b != 0 && Mem.wfFrom (a + 1) m

/-- The canonical form of a memory. -/
def Mem.wf (m : Mem) : Bool := Mem.wfFrom 0 m

/-- The cell of byte lane `l` of the word whose lowest cell is `key` (R102). -/
def laneCell (bigEndian : Bool) (key l : Nat) : Nat := key + (if bigEndian then 3 - l else l)

/-- The word whose lowest cell is `key` (R102). -/
def Mem.readWord (m : Mem) (bigEndian : Bool) (key : Nat) : Word :=
  ofLanes (m.read (laneCell bigEndian key 0)) (m.read (laneCell bigEndian key 1)) (m.read (laneCell bigEndian key 2))
    (m.read (laneCell bigEndian key 3))

/-- Write lane `l` of a bus word when its byte enable is set. -/
def Mem.writeLane (m : Mem) (bigEndian : Bool) (key : Nat) (data : Word) (be : BitVec 4) (l : Nat) : Mem :=
  if be.getLsbD l then m.write (laneCell bigEndian key l) (laneOf data l) else m

/-- Write the enabled lanes of a bus word (R120). -/
def Mem.writeLanes (m : Mem) (bigEndian : Bool) (key : Nat) (data : Word) (be : BitVec 4) : Mem :=
  (((m.writeLane bigEndian key data be 0).writeLane bigEndian key data be 1).writeLane bigEndian key data be 2).writeLane
    bigEndian key data be 3

/-! ## Free values (log entry 8) -/

/-- The free value of use `tag` at this step. -/
def State.free (s : State) (tag : Nat) : Word := Config.freeWord s.draws tag

/-- One of the values that the spec leaves possible: `cur` when the others equal it, else a free choice. -/
def State.choose {α : Type} [DecidableEq α] (s : State) (tag : Nat) (cur : α) (olds : List α) : α :=
  if olds.all (fun o => o = cur) then cur else (cur :: olds).getD ((s.free tag).toNat % (olds.length + 1)) cur

/-- The uses of the free values, one number each. -/
def tagLoadDelay : Nat := 0
def tagEntryHi : Nat := 1
def tagEntryLo : Nat := 2
def tagIndex : Nat := 3
def tagTlb : Nat := 4
def tagStatus : Nat := 5
def tagRandom : Nat := 6
def tagMultiHit : Nat := 7
def tagDivLo : Nat := 8
def tagDivHi : Nat := 9
def tagCauseCe : Nat := 10
def tagProbe : Nat := 11
def tagHiLo : Nat := 12
def tagNmiStatus : Nat := 16
def tagNmiCause : Nat := 17
def tagNmiEpc : Nat := 18
def tagWriteOnly : Nat := 20
def tagTorn : Nat := 21
def tagOverrun : Nat := 22
def tagIrLate : Nat := 23
/-- What a fetch draws of the uses above has this added, so that it is drawn apart from what the instruction draws. -/
def tagFetch : Nat := 24
def tagReadStatus : Nat := 48
def tagIntStatus : Nat := 49
def tagVector : Nat := 50
def tagChi : Nat := 51
def tagUncached : Nat := 52
def tagWay : Nat := 53
def tagSnoop : Nat := 54

/-! ## General registers (R31) -/

/-- The general register `r`: register 0 reads 0. -/
def State.reg (s : State) (r : Reg) : Word := if r = 0 then 0 else s.gpr[r.toNat]'r.isLt

/-- Write the general register `r`: a write to register 0 is discarded. -/
def State.setReg (s : State) (r : Reg) (v : Word) : State :=
  { s with gpr := if r = 0 then s.gpr else s.gpr.set r.toNat v r.isLt }

/-- The general register `r` as a source operand: after a load of `r` in the previous instruction, its new or its old value, of which
no source says which (R434, R1080, log entry 10). -/
def State.opReg (s : State) (r : Reg) : Word :=
  match s.recent with
  | .loaded rt old _ :: _ => if rt = r && r != 0 then s.choose tagLoadDelay (s.reg r) [old] else s.reg r
  | _ => s.reg r

/-- The register that `lwl` or `lwr` merges into: directly after the other of the two on the same register it is the merged value
(R1080), otherwise an operand like any other. -/
def State.mergeReg (s : State) (r : Reg) (kind : LoadKind) : Word :=
  match s.recent with
  | .loaded rt _ k :: _ =>
    if rt = r && ((kind = .left && k = .right) || (kind = .right && k = .left)) then s.reg r else s.opReg r
  | _ => s.opReg r

/-! ## The accumulator (R33, R380) -/

/-- HI : LO. -/
def State.acc (s : State) : BitVec 64 := s.hi ++ s.lo

/-- Write HI : LO. -/
def State.setAcc (s : State) (v : BitVec 64) : State := { s with hi := v.extractLsb' 32 32, lo := v.extractLsb' 0 32 }

/-! ## Advancing (R400) -/

/-- How many traces the hazards look back over. -/
def State.traceLength (s : State) : Nat := max 2 s.board.hazardSlots

/-- What completing an instruction makes of the traces before it: the overwriting of a value of `mfhi` or `mflo` is done (R1081). -/
def Trace.settle : Trace → Trace
  | .hiLoOver rd late => if late then .hiLoLate rd else .plain
  | .hiLoLate _ => .plain
  | t => t

/-- The instruction completes: the next two addresses, whether a delay slot follows, and what it leaves for the hazards. -/
def State.advance (s : State) (pc npc : Word) (ds : Bool) (t : Trace) : State :=
  { s with pc := pc, npc := npc, ds := ds, recent := (t :: s.recent.map Trace.settle).take s.traceLength, pending := .none,
           fresh := false, draws := s.draws + 1 }

/-- Sequential execution. -/
def State.retire (s : State) (t : Trace) : State := s.advance s.npc (s.npc + 4) false t

/-- A jump, or a branch that is taken: the delay slot, then the target. -/
def State.jumpTo (s : State) (target : Word) : State := s.advance s.npc target true .plain

/-- A branch that is not taken: its delay slot is executed all the same. -/
def State.fallThrough (s : State) : State := s.advance s.npc (s.npc + 4) true .untaken

/-- A likely branch that is not taken: the delay slot is nullified (R414). -/
def State.nullify (s : State) : State := s.advance (s.npc + 4) (s.npc + 8) false .plain

/-! ## Hazards (R1080 to R1082) -/

/-- The traces inside the coprocessor 0 hazard window. -/
def State.window (s : State) : List Trace := s.recent.take s.board.hazardSlots

/-- EntryHi values replaced by `mtc0`, by `tlbr`, as R1082 counts them for the reader. -/
def oldEntryHi (byMtc0 byTlbr : Bool) : Trace → Option Word
  | .cp0 (.entryHi o) => if byMtc0 then some o else none
  | .cp0 (.tlbRead o _) => if byTlbr then some o else none
  | _ => none

/-- EntryLo values replaced by `mtc0` or by `tlbr`. -/
def oldEntryLo (byMtc0 : Bool) : Trace → Option Word
  | .cp0 (.entryLo o) => if byMtc0 then some o else none
  | .cp0 (.tlbRead _ o) => if byMtc0 then none else some o
  | _ => none

/-- Index values replaced by `mtc0` or by `tlbp`. -/
def oldIndex (byMtc0 : Bool) : Trace → Option Word
  | .cp0 (.index o) => if byMtc0 then some o else none
  | .cp0 (.probe o) => some o
  | _ => none

/-- Status values replaced by `mtc0`. -/
def oldStatus : Trace → Option Word
  | .cp0 (.status o) => some o
  | _ => none

/-- The EntryHi that translation (after `mtc0` and `tlbr`), `tlbp`, `tlbwi`, `tlbwr` (after `mtc0`) and `mfc0` (after `tlbr`) see (R1082,
log entry 12); `tag` is the draw. -/
def State.seenEntryHi (s : State) (tag : Nat) (byMtc0 byTlbr : Bool) : Word :=
  s.choose tag s.cp0.entryHi (s.window.filterMap (oldEntryHi byMtc0 byTlbr))

/-- The EntryLo that `tlbwi`, `tlbwr` (after `mtc0`) and `mfc0` (after `tlbr`) see. -/
def State.seenEntryLo (s : State) (byMtc0 : Bool) : Word :=
  s.choose tagEntryLo s.cp0.entryLo (s.window.filterMap (oldEntryLo byMtc0))

/-- The Index that `tlbwi`, `tlbr` (after `mtc0` and `tlbp`) and `mfc0` (after `tlbp`) see. -/
def State.seenIndex (s : State) (byMtc0 : Bool) : Word :=
  s.choose tagIndex s.cp0.index (s.window.filterMap (oldIndex byMtc0))

/-- The bits of Status under `mask` that an instruction, a fetch or an interrupt sees. -/
def State.seenStatus (s : State) (tag : Nat) (mask : Word) : Word :=
  s.choose tag (s.cp0.status &&& mask) ((s.window.filterMap oldStatus).map (· &&& mask))

/-- The TLBs before the last writes of the window, each write undone in turn. -/
def tlbBefore (tlb : Vector TlbEntry 32) : List Trace → List (Vector TlbEntry 32)
  | [] => []
  | .cp0 (.tlb i old) :: ts => let t := tlb.set i.toNat old i.isLt; t :: tlbBefore t ts
  | _ :: ts => tlbBefore tlb ts

/-- The TLB that translation, `tlbp` and `tlbr` see. -/
def State.seenTlb (s : State) (tag : Nat) : Vector TlbEntry 32 := s.choose tag s.tlb (tlbBefore s.tlb s.window)

/-- An instruction reads `uses` and writes `dest`, by a load when `late`: note it for the values of `mfhi` and `mflo` (R1081). -/
def Trace.note (uses : List Reg) (dest : Option Reg) (late : Bool) : Trace → Trace
  | .hiLoRead rd used =>
    if uses.contains rd then .hiLoRead rd true else if dest = some rd && !used then .hiLoOver rd late else .hiLoRead rd used
  | .hiLoLate rd => if uses.contains rd then .hiLoRead rd true else .hiLoLate rd
  | t => t

/-- The free value that the register of an earlier `mfhi` or `mflo` takes when HI or LO is written too soon after it. Where an instruction in
between has used that value, the run is refused: "The model refuses a run in which a HI/LO-writing instruction is executed within two
instructions after a `mfhi`/`mflo`" (R1081, decision D33, U-HILO; log entry 11). -/
def State.spoil (s : State) : List Trace → Except Refusal State
  | [] => .ok s
  | .hiLoRead rd used :: ts => if used then .error .hiLoHazard else (s.setReg rd (s.free (tagHiLo + ts.length))).spoil ts
  | _ :: ts => s.spoil ts

/-- What an event that replaces Status by `f` of it and EntryHi by `g` of it makes of a value that a recent write replaced. -/
def Trace.mapCp0 (f g : Word → Word) : Trace → Trace
  | .cp0 (.status o) => .cp0 (.status (f o))
  | .cp0 (.entryHi o) => .cp0 (.entryHi (g o))
  | .cp0 (.tlbRead o l) => .cp0 (.tlbRead (g o) l)
  | t => t

/-- What an exception makes of a trace: it ends a load delay (R1080) and undoes the overwriting that was in progress; the windows of R1081
and R1082 count instructions and go on. -/
def Trace.interrupt : Trace → Trace
  | .loaded _ _ _ => .plain
  | .hiLoOver rd _ => .hiLoRead rd false
  | .hiLoLate _ => .plain
  | t => t

/-! ## Modes and interrupts -/

/-- User mode (R460): KUc, as a fetch or as an instruction sees it. -/
def State.userMode (s : State) (tag : Nat) : Bool := bitOf (s.seenStatus tag 0x2) 1

/-- Coprocessor 0 may be used (R320): kernel mode, or CU0. -/
def State.cop0Usable (s : State) : Bool := let v := s.seenStatus tagStatus 0x10000002; !bitOf v 1 || bitOf v 28

/-- Coprocessor z may be used (R446): CUz. -/
def State.copUsable (s : State) (z : Nat) : Bool := bitOf (s.seenStatus tagStatus (bitMask (28 + z))) (28 + z)

/-- Cause.IP[7:0]: Int[5:0] live over the two software bits; Int[1], Int[3], Int[5] are 0 (R56, R474, D9). -/
def State.ip (s : State) : BitVec 8 :=
  BitVec.ofBoolListLE [s.cp0.sw.getLsbD 0, s.cp0.sw.getLsbD 1, s.dev.biu.wrBusErr, false, s.dev.intr.irqLow, false, s.dev.intr.irqHigh,
    false]

/-- The interrupt condition (R474): IEc gates every interrupt, which is all the mutual exclusion there is (R128). -/
def State.interruptPending (s : State) : Bool :=
  let st := s.seenStatus tagIntStatus 0xFF01
  bitOf st 0 && (s.ip &&& st.extractLsb' 8 8) != 0

/-! ## Exceptions (R461 to R467) -/

/-- An exception with what it records. -/
inductive Exc where
  | int
  | mod (va : Word)
  /-- A refill (no entry matches) or an invalid entry, on a fetch or load. -/
  | tlbl (va : Word) (refill : Bool)
  | tlbs (va : Word) (refill : Bool)
  | adel (va : Word)
  | ades (va : Word)
  | ibe
  | dbe
  | sys
  | bp
  | ri
  | cpu (z : BitVec 2)
  | ov
deriving DecidableEq, Repr

/-- `Cause.ExcCode` (R461). -/
def Exc.code : Exc → BitVec 5
  | .int => 0
  | .mod _ => 1
  | .tlbl _ _ => 2
  | .tlbs _ _ => 3
  | .adel _ => 4
  | .ades _ => 5
  | .ibe => 6
  | .dbe => 7
  | .sys => 8
  | .bp => 9
  | .ri => 10
  | .cpu _ => 11
  | .ov => 12

/-- The address that BadVAddr records (R466). -/
def Exc.badVAddr : Exc → Option Word
  | .mod va | .tlbl va _ | .tlbs va _ | .adel va | .ades va => some va
  | _ => none

/-- The address whose page Context and EntryHi record: TLB exceptions only (R466). -/
def Exc.tlbVa : Exc → Option Word
  | .mod va | .tlbl va _ | .tlbs va _ => some va
  | _ => none

/-- A refill of a kuseg address: the UTLB miss vector (R468). -/
def Exc.utlbMiss : Exc → Bool
  | .tlbl va refill | .tlbs va refill => refill && !va.getLsbD 31
  | _ => false

/-- The vectors (R467). -/
def vectorOf (bev utlb : Bool) : Word :=
  match bev, utlb with
  | false, true => 0x80000000
  | false, false => 0x80000080
  | true, true => 0xBFC00100
  | true, false => 0xBFC00180

/-- Push the mode stack: kernel mode, interrupts off (R465). -/
def pushStatus (status : Word) : Word := (status &&& 0xFFFFFFC0) ||| ((status &&& 0xF) <<< 2)

/-- Pop the mode stack: `rfe` (R327). -/
def popStatus (status : Word) : Word := (status &&& 0xFFFFFFF0) ||| ((status >>> 2) &&& 0xF)

/-- EntryHi after an exception (R466). -/
def Exc.entryHi (e : Exc) (hi : Word) : Word :=
  match e.tlbVa with
  | some va => maskedWrite 0xFFFFF000 hi va
  | none => hi

/-- What an exception does to coprocessor 0 (R465, R466): `ce` is the value of Cause.CE where it is open (U-CAUSECE). -/
def Cp0.raise (c : Cp0) (e : Exc) (pc : Word) (ds : Bool) (ce : BitVec 2) : Cp0 :=
  { c with
    epc := if ds then pc - 4 else pc
    bd := ds
    exc := e.code
    ce := match e with
      | .cpu z => z
      | _ => ce
    status := pushStatus c.status
    badVAddr := (e.badVAddr).getD c.badVAddr
    context := match e.tlbVa with
      | some va => maskedWrite 0x001FFFFC c.context ((va >>> 10) &&& 0x001FFFFC)
      | none => c.context
    entryHi := e.entryHi c.entryHi }

/-- Taking an exception: one atomic step (R465). The instruction that takes it, `syscall` too, is not counted in the windows of R1081 and R1082, which
do not say whether it is (DESIGN CHOICE, log entries 11 and 12). -/
def State.raise (s : State) (e : Exc) : State :=
  let vector := vectorOf (bitOf (s.seenStatus tagVector 0x00400000) 22) e.utlbMiss
  { s with
    cp0 := s.cp0.raise e s.pc s.ds ((s.free tagCauseCe).extractLsb' 0 2)
    pc := vector, npc := vector + 4, ds := false, recent := s.recent.map fun t => (t.mapCp0 pushStatus e.entryHi).interrupt
    pending := .none, fresh := false, draws := s.draws + 1 }

/-- The mode change of `rfe`: the return from an exception (R327, R480); whatever value of Status an earlier `mtc0` left to see is popped
with it (R1082). -/
def State.returnMode (s : State) : State :=
  { s with cp0 := { s.cp0 with status := popStatus s.cp0.status }, recent := s.recent.map (Trace.mapCp0 popStatus id) }

/-- Status after an NMI (R476, D34): kernel mode, interrupts off; bits 20:16 and 5:2 are open (U-NMI). -/
def nmiStatus (open' status : Word) : Word := maskedWrite 0x001F003C status open' &&& ~~~0x3#32

/-- Taking an NMI (R476, D34): the vector; Cause and EPC are open (U-NMI). -/
def State.takeNmi (s : State) : State :=
  let st := nmiStatus (s.free tagNmiStatus)
  let ca := s.free tagNmiCause
  { s with
    cp0 := { s.cp0 with
      status := st s.cp0.status
      bd := bitOf ca 31, ce := ca.extractLsb' 28 2, sw := ca.extractLsb' 8 2, exc := ca.extractLsb' 2 5
      epc := s.free tagNmiEpc }
    dev := { s.dev with intr := { s.dev.intr with nmi := false } }
    pc := 0xBFC00000, npc := 0xBFC00004, ds := false, recent := s.recent.map fun t => (t.mapCp0 st id).interrupt
    pending := .none, fresh := false, draws := s.draws + 1 }

/-! ## How a part of an instruction can end -/

/-- A value and a state; an exception; the bus does not answer yet; a refusal. An exception and a wait carry the state because a read may
have drained the write buffer before (R121). -/
inductive Res (α : Type) where
  | ok (a : α) (s : State)
  | exc (e : Exc) (s : State)
  | wait (s : State)
  | refused (r : Refusal)

/-- Go on with the value, or end as before. -/
def Res.bind {α β : Type} (r : Res α) (k : α → State → Res β) : Res β :=
  match r with
  | .ok a s => k a s
  | .exc e s => .exc e s
  | .wait s => .wait s
  | .refused r => .refused r

/-- The outcome of the step: an exception is taken (R465); a core that waits tries again. -/
def Res.outcome (r : Res Unit) : Host.Outcome State Fault Refusal :=
  match r with
  | .ok _ s => .next s
  | .exc e s => .next (s.raise e)
  | .wait s => .next s
  | .refused r => .refused r

/-- A check that the model makes. -/
def Res.ofExcept {α : Type} (s : State) : Except Refusal α → Res α
  | .ok a => .ok a s
  | .error r => .refused r

end Sys2Proof.Machine
end

