-- ==== Sys2Proof/Machine/Cache.lean ====
section
/-!
DEFINITION. The two caches (spec/10_state.md R51, R52, spec/20_memory.md R124, R125, R129): their lines, what a hit reads, and how
a line is filled, replaced and invalidated; Map.lean and Biu.lean say when. The tags of the instruction cache are of the physical address before
the re-mapper, which stands behind the core (R195); those of the data cache are of the place that the address reaches, so that no image of it and
no change of the map shows a stale word (R125, DEDUCED, log entry 16; `State.place`). Nothing enables, disables or invalidates a cache otherwise (R53).
-/

namespace Sys2Proof.Machine

/-- The words of a refill burst, a power of two (R51, R52). -/
def Burst.words : Burst → Nat
  | .one => 1
  | .four => 4
  | .eight => 8
  | .sixteen => 16
  | .thirtyTwo => 32

/-- The burst of the instruction cache: at least a line of four words. -/
def Board.fetchBurst (b : Board) : Nat := max 4 b.iBurst.words

/-! ## The instruction cache (R51) -/

/-- Line number, tag and word number of a physical address. -/
def iIndex (pa : Word) : BitVec 8 := pa.extractLsb' 4 8
def iTag (pa : Word) : BitVec 20 := pa.extractLsb' 12 20
def ILine.word (l : ILine) (pa : Word) : Word :=
  match pa.extractLsb' 2 2 with
  | 0#2 => l.word0
  | 1#2 => l.word1
  | 2#2 => l.word2
  | _ => l.word3

/-- The word at `pa` if its line is in the cache. -/
def iLookup (lines : Vector (Option ILine) 256) (pa : Word) : Option Word :=
  let i := iIndex pa
  match lines[i.toNat]'i.isLt with
  | some l => if l.tag = iTag pa then some (l.word pa) else none
  | none => none

/-- The lines of a refill: four words each, the first at `pa`. -/
def iFill (c : Vector (Option ILine) 256) (pa : Word) : List Word → Vector (Option ILine) 256
  | a :: b :: x :: d :: ws =>
    iFill (c.set (iIndex pa).toNat (some { tag := iTag pa, word0 := a, word1 := b, word2 := x, word3 := d }) (iIndex pa).isLt) (pa + 16) ws
  | _ => c

/-- The line of `pa`, if it is in the cache, is invalidated. -/
def iDrop (c : Vector (Option ILine) 256) (pa : Word) : Vector (Option ILine) 256 :=
  if (iLookup c pa).isSome then c.set (iIndex pa).toNat none (iIndex pa).isLt else c

/-! ## The data cache (R52) -/

/-- Set number and tag of a place, whose low bits are those of every address that reaches it; `full` is the size of `Board.dKbyte`: 128 sets of two
lines, or 64. -/
def dIndex (full : Bool) (pa : Word) : BitVec 7 := if full then pa.extractLsb' 2 7 else (0#1) ++ pa.extractLsb' 2 6
def dTag (pa : Word) : BitVec 24 := pa.extractLsb' 8 24

/-- The way holds the word of `pa`. -/
def DLine.hits (l : Option DLine) (pa : Word) : Bool :=
  match l with
  | some l => l.tag == dTag pa
  | none => false

/-- The set of a physical address. -/
def dSet (full : Bool) (sets : Vector DSet 128) (pa : Word) : DSet :=
  let i := dIndex full pa
  sets[i.toNat]'i.isLt

/-- The word at `pa` if it is in the cache. -/
def dLookup (full : Bool) (c : Vector DSet 128) (pa : Word) : Option Word :=
  let s := dSet full c pa
  if DLine.hits s.way0 pa then s.way0.map (·.word) else if DLine.hits s.way1 pa then s.way1.map (·.word) else none

/-- The set of `pa` becomes `s`. -/
def dPut (full : Bool) (c : Vector DSet 128) (pa : Word) (s : DSet) : Vector DSet 128 :=
  c.set (dIndex full pa).toNat s (dIndex full pa).isLt

/-- Where the cache holds the word of `pa`, it becomes `w`. -/
def dReplace (full : Bool) (c : Vector DSet 128) (pa w : Word) : Vector DSet 128 :=
  let s := dSet full c pa
  let l : Option DLine := some { tag := dTag pa, word := w }
  if DLine.hits s.way0 pa then dPut full c pa { s with way0 := l } else if DLine.hits s.way1 pa then dPut full c pa { s with way1 := l } else c

/-- The word of `pa` leaves the cache. -/
def dDrop (full : Bool) (c : Vector DSet 128) (pa : Word) : Vector DSet 128 :=
  let s := dSet full c pa
  dPut full c pa { way0 := if DLine.hits s.way0 pa then none else s.way0, way1 := if DLine.hits s.way1 pa then none else s.way1 }

/-- A word enters the cache: where it is already, else in an invalid way, else in the way that `second` says, since no source gives the
replacement (R52). -/
def dAllocate (full : Bool) (c : Vector DSet 128) (pa w : Word) (second : Bool) : Vector DSet 128 :=
  let s := dSet full c pa
  let l : Option DLine := some { tag := dTag pa, word := w }
  if DLine.hits s.way0 pa || DLine.hits s.way1 pa then dReplace full c pa w
  else if s.way0.isNone || (s.way1.isSome && !second) then dPut full c pa { s with way0 := l }
  else dPut full c pa { s with way1 := l }

end Sys2Proof.Machine
end

