-- ==== Sys2Proof/Machine/Clock.lean ====
section
/-!
DEFINITION. The Clock Module (spec/61_siu_clock.md R530 to R544): the Clock Control Register, which module clocks run, and the rates of
all clocks as exact fractions of the crystal's. No step depends on a rate (R1090): which clock ticks next is the agenda's; the gates stop a module (R540).
-/

namespace Sys2Proof.Machine

/-- The bits of Clock Control that are not reserved (R540). -/
def clkMask : Word := 0xFF3FAFFF

/-- A write of Clock Control: divider values outside their tables are refused (R540, U-CLKDIV). -/
def clkWrite (v : Word) : Except Refusal Word :=
  if fieldOf v 24 8 = 255 || fieldOf v 8 3 = 7 || fieldOf v 4 3 = 7 then .error .clockDivider else .ok (v &&& clkMask)

/-- The gates (R540). ENSIBMCLK = 0 halts the SIB and not what is divided down from the SIB Master Clock, CHICLK with CHIMCLKSEL = 1 and CSERCLK
with CSERSEL = 0 (R534 is silent; DESIGN CHOICE, log entry 51). -/
def enChiClk (clk : Word) : Bool := bitOf clk 19
def enVidClk (clk : Word) : Bool := bitOf clk 18
def enMbusClk (clk : Word) : Bool := bitOf clk 17
def enSpiClk (clk : Word) : Bool := bitOf clk 16
def enTimerClk (clk : Word) : Bool := bitOf clk 15
def enSibClk (clk : Word) : Bool := bitOf clk 11
def enCserClk (clk : Word) : Bool := bitOf clk 3
def enIrClk (clk : Word) : Bool := bitOf clk 2 && enCserClk clk
def enUartAClk (clk : Word) : Bool := bitOf clk 1 && enCserClk clk
def enUartBClk (clk : Word) : Bool := bitOf clk 0 && enCserClk clk

/-! ## Rates (R530 to R533, R543): frequencies in Hz as rationals -/

/-- F, the PLL output. -/
def rateF (sysclk : Nat) : ℚ := 8 * sysclk
/-- FREECLK and XHFREE. -/
def rateFree (sysclk : Nat) : ℚ := rateF sysclk
def rateXhFree (sysclk : Nat) : ℚ := rateF sysclk / 2
/-- CORECLK = DCLKOUT = CLK2X, and CLK; `slow` is SLOWBUS (R531). -/
def rateClk2x (sysclk : Nat) (rf : BitVec 2) (slow : Bool) : ℚ := rateF sysclk / 2 ^ (rf.toNat + slow.toNat)
def rateClk (sysclk : Nat) (rf : BitVec 2) (slow : Bool) : ℚ := rateClk2x sysclk rf slow / 2
/-- VIDCLK (R532, R806). -/
def rateVidClk (sysclk : Nat) (power : Word) : ℚ := rateXhFree sysclk / 2 ^ (fieldOf power 27 2).toNat
/-- The peripheral master clocks: CLK2X and CLK, or FREECLK and XHFREE with DIVMOD = 1 (R533). -/
def rateMaster2x (sysclk : Nat) (rf : BitVec 2) (power : Word) : ℚ :=
  if bitOf power 25 then rateFree sysclk else rateClk2x sysclk rf (bitOf power 26)
def rateMaster (sysclk : Nat) (rf : BitVec 2) (power : Word) : ℚ := rateMaster2x sysclk rf power / 2
/-- The SIB Master Clock (R534, R543): divided from CLK2X, or the oscillator of `ext` Hz on the SIBMCLK pin when that is an input. -/
def rateSibMclk (sysclk : Nat) (rf : BitVec 2) (power clk : Word) (ext : ℚ) : ℚ :=
  if bitOf clk 13 then rateMaster2x sysclk rf power / ((fieldOf clk 8 3).toNat + 2) else ext
/-- CHICLK (R534, R543): the clock of `chi` Hz on the pin when that is an input; else divided from CLK, or with CHIMCLKSEL from the SIB
Master Clock. -/
def rateChiClk (sysclk : Nat) (rf : BitVec 2) (power clk : Word) (ext chi : ℚ) : ℚ :=
  if !bitOf clk 20 then chi
  else (if bitOf clk 21 then rateSibMclk sysclk rf power clk ext else rateMaster sysclk rf power) / ((fieldOf clk 24 8).toNat + 2)
/-- The fixed CSERCLK divider (R543). -/
def cserDivisor : Variant → ℚ
  | .tmpr3911 => 4
  | .tmpr3912 => 2
/-- CSERCLK (R534, R543): with CSERSEL = 0 from the SIB Master Clock; whether the fixed divider stays in that path is open (N61-3,
log entry 51). -/
def rateCserClk (v : Variant) (sysclk : Nat) (rf : BitVec 2) (power clk : Word) (ext : ℚ) : ℚ :=
  if bitOf clk 7 then rateMaster2x sysclk rf power / cserDivisor v
  else rateSibMclk sysclk rf power clk ext / (if Config.cserFixedStage then cserDivisor v else 1)
/-- IRCLK, UARTACLK, UARTBCLK (R543). -/
def rateUartClk (v : Variant) (sysclk : Nat) (rf : BitVec 2) (power clk : Word) (ext : ℚ) : ℚ :=
  rateCserClk v sysclk rf power clk ext / ((fieldOf clk 4 3).toNat + 2)
/-- The Magicbus, timer and SPI master clocks (R543). -/
def rateMbusMclk (sysclk : Nat) (rf : BitVec 2) (power : Word) : ℚ := rateMaster sysclk rf power
def rateTimerClk (sysclk : Nat) (rf : BitVec 2) (power : Word) : ℚ := rateMaster sysclk rf power / 32
def rateSpiMclk (sysclk : Nat) (rf : BitVec 2) (power : Word) : ℚ := rateMaster sysclk rf power / 5

end Sys2Proof.Machine
end

