-- ==== Sys2Proof/Machine/Dma.lean ====
section
/-!
DEFINITION. The pointer that the DMA engines of the modules share: it starts at 0 and counts up to the size (D16).
-/

namespace Sys2Proof.Machine

/-- After a transfer at pointer `p` of a buffer whose last pointer is `size`: the next pointer, whether the engine stops, whether the
half-way point and the end of the buffer are reached. The half-way point is half the length, rounded down (DESIGN CHOICE, log
entry 38). -/
def dmaNext {n : Nat} (p size : BitVec n) (oneTime : Bool) : BitVec n × Bool × Bool × Bool :=
  let half := p.toNat + 1 = (size.toNat + 1) / 2
  if p = size then (if oneTime then (p, true, half, true) else (0, false, half, true)) else (p + 1, false, half, false)

end Sys2Proof.Machine
end

