-- ==== Sys2Proof/Machine/Chi.lean ====
section
/-!
DEFINITION. The CHI Module (spec/62_chi.md R570 to R601). The unit of time is one edge of CHICLK, rising or falling (R574).
-/

namespace Sys2Proof.Machine

/-- Fields of CHI Control (R590). -/
def Chi.en (c : Chi) : Bool := bitOf c.ctl 0
def Chi.nchan (c : Chi) : BitVec 5 := c.ctl.extractLsb' 20 5
def Chi.twice (c : Chi) : Bool := bitOf c.ctl 3
def Chi.txFsEdge (c : Chi) : Bool := bitOf c.ctl 4
def Chi.fsEdge (c : Chi) : Bool := bitOf c.ctl 5
def Chi.txFsPol (c : Chi) : Bool := bitOf c.ctl 8
def Chi.rxFsPol (c : Chi) : Bool := bitOf c.ctl 9
def Chi.fsMaster (c : Chi) : Bool := bitOf c.ctl 27
def Chi.loop (c : Chi) : Bool := bitOf c.ctl 29

/-- Which path is active (R581). -/
def Chi.rxActive (c : Chi) : Bool := c.en && (bitOf c.size 1 || bitOf c.ctl 2)
def Chi.txActive (c : Chi) : Bool := c.en && (bitOf c.size 0 || bitOf c.ctl 1)

/-- Edge counts between the sampling of CHIFS and the first data bit (R574). -/
def cerx (ctl : Word) : Int :=
  2 * (ctl.extractLsb' 12 4).toNat + (if bitOf ctl 3 then 2 else 0) - (if bitOf ctl 5 != bitOf ctl 7 then 1 else 0)
def cetx (ctl : Word) : Int := 2 * (ctl.extractLsb' 16 4).toNat - (if bitOf ctl 5 != bitOf ctl 6 then 1 else 0)

/-- Timeslots of a frame, CHICLK edges of a bit and of a frame (R572). -/
def Chi.slotsPerFrame (c : Chi) : Nat := 2 * (c.nchan.toNat + 1)
def Chi.edgesPerBit (c : Chi) : Nat := if c.twice then 4 else 2
def Chi.edgesPerFrame (c : Chi) : Nat := c.slotsPerFrame * 8 * c.edgesPerBit

/-- The byte numbers whose pointer is enabled and selects timeslot `s` (R578, R579): `en` has the four enable bits. -/
def chiSelected (ptr : Word) (en : BitVec 4) (s : BitVec 5) : List Nat :=
  (List.range 4).filter fun k => en.getLsbD k && ptr.extractLsb' (8 * k) 5 == s

/-- Pointer and enables of a transmit or receive half-frame (R591 to R595). -/
def Chi.txSelect (c : Chi) (b : Bool) (s : BitVec 5) : List Nat :=
  if b then chiSelected c.txPtrB (c.ptrEn.extractLsb' 28 4) s else chiSelected c.txPtrA (c.ptrEn.extractLsb' 24 4) s
def Chi.rxSelect (c : Chi) (b : Bool) (s : BitVec 5) : List Nat :=
  if b then chiSelected c.rxPtrB (c.ptrEn.extractLsb' 20 4) s else chiSelected c.rxPtrA (c.ptrEn.extractLsb' 16 4) s

/-! ## The end of a half-frame (R580, R582) -/

/-- The request of the oldest pending half-frame, unless the DMA has stopped. -/
def Chi.request (c : Chi) : Chi :=
  if c.dmaDone then { c with reqs := [], rxReq := false, txReq := false }
  else match c.reqs with
    | [] => c
    | j :: _ => { c with rxReq := j.rx, txReq := j.tx }

/-- The receiver, the transmitter alone has a count of -1, before the CHIFS of its frame (R574): it has begun a frame when the other does, or
does not run in it. -/
def Chi.rxLeads (c : Chi) : Bool := cerx c.ctl < 0 && 0 ≤ cetx c.ctl
def Chi.txLeads (c : Chi) : Bool := cetx c.ctl < 0 && 0 ≤ cerx c.ctl

/-- The receiver, the transmitter has ended half-frame A (`false`) or B, and its interrupt is still to come. -/
def Chi.rxEnd (c : Chi) (b : Bool) : Bool := if b then c.rxEndB else c.rxEndA
def Chi.txEnd (c : Chi) (b : Bool) : Bool := if b then c.txEndB else c.txEndA
def Chi.alone (c : Chi) (b : Bool) : Bool := if b then c.aloneB else c.aloneA
def Chi.setRxEnd (c : Chi) (b v : Bool) : Chi := if b then { c with rxEndB := v } else { c with rxEndA := v }
def Chi.setTxEnd (c : Chi) (b v : Bool) : Chi := if b then { c with txEndB := v } else { c with txEndA := v }

/-- A direction begins half-frame `b`: whether the other, which leads, runs in this frame (`runs`) is seen when half-frame A begins. -/
def Chi.meets (c : Chi) (b runs : Bool) : Chi := if b then { c with aloneB := c.aloneA } else { c with aloneA := !runs }

/-- The receiver, the transmitter begins half-frame `b`: an end of an earlier one that is still unpaired, as a frame that CHIFS has cut short
leaves it, is forgotten. -/
def Chi.rxBegins (c : Chi) (b : Bool) : Chi :=
  let c := c.setRxEnd b false
  if c.txLeads then c.meets b (c.txRun && !c.txB) else c
def Chi.txBegins (c : Chi) (b : Bool) : Chi :=
  let c := c.setTxEnd b false
  if c.rxLeads then c.meets b (c.rxRun && !c.rxB) else c

/-- Half-frame `b` is over (R582): for both directions, or for the one that runs in its frame when the one with a count of -1 does not (DESIGN
CHOICE, log entry 39). -/
def Chi.halfOver (c : Chi) (b : Bool) : Bool :=
  if c.alone b then (if c.rxLeads then c.txEnd b else c.rxEnd b) else c.rxEnd b && c.txEnd b

/-- The half-frame is over: the core reaches its registers, its DMA requests wait behind those before them. A direction that has not ended it
requests nothing, since its holding register is not complete, not consumed (R580). However many half-frames end while requests still wait, all of
them queue, and a late transfer moves what the register then holds (DESIGN CHOICE, log entry 39: R580 does not say what becomes of a request that
is late). -/
def Chi.halfEnds (c : Chi) (b : Bool) : Chi :=
  let j : ChiJob := ⟨b, bitOf c.size 1 && c.rxEnd b, bitOf c.size 0 && c.txEnd b⟩
  let c := ({ c with cpuSelB := b }.setRxEnd b false).setTxEnd b false
  if c.dmaDone || !(j.rx || j.tx) then c
  else
    let c' := { c with reqs := c.reqs ++ [j] }
    if c.reqs.isEmpty then c'.request else c'

/-- The interrupt and the requests of half-frame `b` when it is over (R582). -/
def Dev.chiHalf (d : Dev) (b : Bool) : Dev :=
  if d.chi.halfOver b then { d with chi := d.chi.halfEnds b, intr := d.intr.set 1 (bitMask (if b then 25 else 26)) } else d

/-! ## The transmitter (R578) -/

/-- The bit of the transmit shift register that is bit `n` of the timeslot. -/
def Chi.txBitOf (c : Chi) (n : BitVec 3) : Bool := c.txShift.getLsbD (if bitOf c.ctl 11 then 7 - n.toNat else n.toNat)

/-- A transmit timeslot starts (R578, R582). When several enabled pointers select it, the byte sent is one of theirs (N62-3). A half-frame
begins to empty its register with its timeslot 0, selected or not (DESIGN CHOICE, log entry 39). -/
def Dev.chiTxSlot (d : Dev) (free : Word) : Dev :=
  let b := d.chi.txB
  let begins := d.chi.txSlot = 0
  let c := if begins then d.chi.txBegins b else d.chi
  let used := if b then c.txUsedB else c.txUsedA
  let err := begins && c.txActive && used
  let hold := if b then c.txHoldB else c.txHoldA
  let ks := c.txSelect b c.txSlot
  let drive := c.txActive && !ks.isEmpty
  let byte := match ks with
    | [k] => laneOf hold k
    | _ => laneOf hold (ks.getD (free.toNat % ks.length) 0)
  { d with
    chi := { c with txShift := if drive then byte else c.txShift, txDriven := drive }
    intr := d.intr.setIf err 1 23 }

/-- The edge at which CHIDOUT is pushed: the next bit, with a new timeslot its byte (R578). -/
def Dev.chiPush (d : Dev) (free : Word) : Dev :=
  let d := if d.chi.txBit = 0 then d.chiTxSlot free else d
  let c := d.chi
  { d with chi := { c with dout := if c.txDriven then c.txBitOf c.txBit else c.dout, txGap := BitVec.ofNat 2 (c.edgesPerBit - 1) } }

/-- A transmit timeslot is over; with the last one of a half-frame the half-frame, which has emptied its register (R582), with the last one of
the frame CHIDOUT is released. -/
def Chi.txSlotEnds (c : Chi) : Chi :=
  let b := c.txB
  if c.txSlot != c.nchan then { c with txSlot := c.txSlot + 1 }
  else
    { c with txSlot := 0, txB := !b, txRun := !b, txDriven := c.txDriven && !b
             txUsedA := c.txUsedA || (c.txActive && !b), txUsedB := c.txUsedB || (c.txActive && b) }.setTxEnd b true

/-- A transmitted bit is over. -/
def Chi.txBitEnds (c : Chi) : Chi := if c.txBit = 7 then { c with txBit := 0 }.txSlotEnds else { c with txBit := c.txBit + 1 }

/-- One edge for the transmitter: its sync delay counter starts a frame, its bits follow one another (R574, R577). -/
def Dev.chiTxEdge (d : Dev) (free : Word) : Dev :=
  let c := d.chi
  let idle := !c.txRun || c.txGap = 0
  let c := if c.txRun then (if c.txGap = 0 then c.txBitEnds else { c with txGap := c.txGap - 1 }) else c
  match c.txSync with
  | some 0 => Dev.chiPush { d with chi := { c with txSync := none, txRun := true, txBit := 0, txB := false, txSlot := 0 } } free
  | n =>
    let d := { d with chi := { c with txSync := n.map (· - 1) } }
    if idle && d.chi.txRun then d.chiPush free else d

/-! ## The receiver (R579) -/

/-- Bytes of a receive holding register that the timeslot fills (R579). -/
def fillLanes (hold : Word) (byte : Byte) : List Nat → Word
  | [] => hold
  | k :: ks => fillLanes (maskedWrite (0xFF#32 <<< (8 * k)) hold (placed byte (8 * k))) byte ks

/-- A receive timeslot starts: a half-frame begins to load its register with its timeslot 0, selected or not (R582; DESIGN CHOICE, log
entry 39). -/
def Dev.chiRxSlot (d : Dev) : Dev :=
  let c := d.chi
  if c.rxSlot = 0 then
    { d with chi := c.rxBegins c.rxB, intr := d.intr.setIf (c.rxActive && (if c.rxB then c.rxUnreadB else c.rxUnreadA)) 1 23 }
  else d

/-- A receive timeslot ends (R579), and with the last one of a half-frame the half-frame. -/
def Chi.rxSlotEnds (c : Chi) : Chi :=
  let b := c.rxB
  let ks := if c.rxActive then c.rxSelect b c.rxSlot else []
  let c := if b then { c with rxHoldB := fillLanes c.rxHoldB c.rxShift ks } else { c with rxHoldA := fillLanes c.rxHoldA c.rxShift ks }
  if c.rxSlot != c.nchan then { c with rxSlot := c.rxSlot + 1 }
  else { c with rxSlot := 0, rxB := !b, rxRun := !b, rxUnreadA := c.rxUnreadA || !b, rxUnreadB := c.rxUnreadB || b }.setRxEnd b true

/-- The edge at which CHIDIN is sampled: a bit enters the receive shift register (R579). -/
def Dev.chiSample (d : Dev) (bit : Bool) : Dev :=
  let d := if d.chi.rxBit = 0 then d.chiRxSlot else d
  let c := d.chi
  let v : Byte := if bit then 1 else 0
  let w := if bitOf c.ctl 10 then (c.rxShift <<< 1) ||| v else (c.rxShift >>> 1) ||| (v <<< 7)
  let c := { c with rxShift := w, rxBit := c.rxBit + 1, rxGap := BitVec.ofNat 2 (c.edgesPerBit - 1) }
  { d with chi := if c.rxBit = 0 then c.rxSlotEnds else c }

/-- One edge for the receiver. -/
def Dev.chiRxEdge (d : Dev) (bit : Bool) : Dev :=
  let c := d.chi
  let idle := c.rxGap = 0
  let c := { c with rxGap := if idle then 0 else c.rxGap - 1 }
  match c.rxSync with
  | some 0 => Dev.chiSample { d with chi := { c with rxSync := none, rxRun := true, rxBit := 0, rxB := false, rxSlot := 0 } } bit
  | n =>
    let d := { d with chi := { c with rxSync := n.map (· - 1) } }
    if idle && d.chi.rxRun then d.chiSample bit else d

/-! ## Frame synchronization (R571, R573, R574) -/

/-- The width of the CHIFS pulse in CHICLK edges (R590). -/
def Chi.fsWidth (c : Chi) : Nat :=
  match (c.ctl.extractLsb' 25 2).toNat with
  | 0 => c.edgesPerBit
  | 1 => 2 * c.edgesPerBit
  | 2 => 8 * c.edgesPerBit
  | _ => c.edgesPerFrame / 2

/-- One edge of the CHIFS generator: the pulse starts with a frame, on the edge CHITXFSEDGE names (R590). The first one starts on the first such edge
after ENCHI is set: the spec does not say when (DESIGN CHOICE, log entry 39). -/
def Chi.fsStep (c : Chi) (rising : Bool) : Chi :=
  if !c.fsMaster then c
  else if c.fsRun then
    let n := if c.fsCnt.toNat + 1 = c.edgesPerFrame then 0 else c.fsCnt + 1
    { c with fsCnt := n, fsOut := n.toNat < c.fsWidth }
  else if rising = c.txFsEdge then { c with fsRun := true, fsCnt := 0, fsOut := true } else c

/-- CHIFS as an output. -/
def Chi.fsLevel (c : Chi) : Bool := xor c.fsOut c.txFsPol

/-- The count of edges that a sync delay counter starts from; -1 is the last edge of the frame (R574). -/
def Chi.delayOf (c : Chi) (n : Int) : BitVec 11 := BitVec.ofNat 11 (if n < 0 then c.edgesPerFrame - 1 else n.toNat)

/-- CHIFS is sampled on the edge CHIFSEDGE names; its active edge starts both sync delay counters (R574, R590). As an output CHIFS has been at its
idle level before the first sample; as an input the first sample only gives its level, whatever the polarity, and starts no frame
(DESIGN CHOICE, log entry 39). An active edge before the running frame is over restarts the counters of each direction after its sync delay,
and a half-frame that is cut short has no interrupt (DESIGN CHOICE, log entry 39). -/
def Chi.sampleFs (c : Chi) (rising fs : Bool) : Chi :=
  if rising != c.fsEdge then c
  else
    let starts := fs != c.fsSeen.getD (if c.fsMaster then c.txFsPol else fs) && fs != c.rxFsPol
    let c := { c with fsSeen := some fs }
    if starts then { c with rxSync := some (c.delayOf (cerx c.ctl)), txSync := some (c.delayOf (cetx c.ctl)) } else c

/-- One edge of CHICLK: `fs` and `din` are the levels at CHIFS and CHIDIN. CHILOOP hands the inverted CHIDOUT to the receiver, in a
timeslot in which nothing is sent the inverse of the last bit sent; where the same edge sends and samples (CERX = CETX), the bit before
the push (R590; DESIGN CHOICE, log entry 39). -/
def Dev.chiEdge (d : Dev) (rising fs din : Bool) (free : Word) : Dev :=
  let c := d.chi
  let bit := if c.loop then !c.dout else din
  let c := c.sampleFs rising (if c.fsMaster then c.fsLevel else fs)
  (((Dev.chiTxEdge { d with chi := c.fsStep rising } free).chiRxEdge bit).chiHalf false).chiHalf true

/-- CHICLK is active: CHIACTINT, whatever else is enabled (R587; N62-6, log entry 39: with every edge), and the module's edge while it is
enabled and its clocks run. -/
def Dev.chiClock (d : Dev) (rising fs din : Bool) (free : Word) : Dev :=
  let d := { d with intr := d.intr.set 1 (bitMask 24) }
  if d.chi.en && enChiClk d.clk && d.power.ensys then d.chiEdge rising fs din free else d

/-! ## DMA (R580) -/

/-- A request, whether the receive transfer comes first, the half-frame, the transfer address. -/
def Chi.req (c : Chi) : Bool := c.rxReq || c.txReq
def Chi.rxNext (c : Chi) : Bool := c.rxReq && (bitOf c.size 14 || !c.txReq)
def Chi.reqB (c : Chi) : Bool := (c.reqs.head?.map ChiJob.half).getD false
def Chi.dmaAddr (c : Chi) (rx : Bool) : Word := (if rx then c.rxStart else c.txStart) + placed c.dmaPtr 2

/-- The four bytes of a word in reverse order. -/
def swapBytes (w : Word) : Word := ofLanes (laneOf w 3) (laneOf w 2) (laneOf w 1) (laneOf w 0)

/-- The memory word of a holding register: byte 3 at the lowest address in both byte orders (R583). -/
def chiMemory (bigEndian : Bool) (hold : Word) : Word := if bigEndian then hold else swapBytes hold

/-- The receive data of the pending transfer; taking it marks the register as read (R582). -/
def Chi.rxData (c : Chi) : Word := if c.reqB then c.rxHoldB else c.rxHoldA
def Chi.rxTaken (c : Chi) : Chi := if c.reqB then { c with rxUnreadB := false } else { c with rxUnreadA := false }

/-- Transmit data arrives by DMA. -/
def Chi.txGiven (c : Chi) (v : Word) : Chi :=
  if c.reqB then { c with txHoldB := v, txUsedB := false } else { c with txHoldA := v, txUsedA := false }

/-- A transfer has been acknowledged, which marks the holding register by `moved`: the pointer moves when both directions are served, and the
next half-frame's request follows (R580). A module that was disabled meanwhile has no request any more and stays in reset (R577). -/
def Dev.chiAck (d : Dev) (rx : Bool) (moved : Chi → Chi) : Dev :=
  let c := moved d.chi
  let c := if rx then { c with rxReq := false } else { c with txReq := false }
  if !(if rx then d.chi.rxReq else d.chi.txReq) then d
  else if c.req then { d with chi := c }
  else
    let (p, stop, half, full) := dmaNext c.dmaPtr (c.size.extractLsb' 2 12) (bitOf c.size 15)
    { d with chi := { c with dmaPtr := p, dmaDone := stop, reqs := c.reqs.tail }.request
             intr := ((d.intr.set 1 (bitMask 27)).setIf half 1 29).setIf full 1 28 }

/-! ## The core -/

/-- A core read or write of `$1FC` (R582, R599, R600). -/
def Chi.readHold (c : Chi) : Word × Chi :=
  if c.cpuSelB then (c.rxHoldB, { c with rxUnreadB := false }) else (c.rxHoldA, { c with rxUnreadA := false })
def Chi.writeHold (c : Chi) (v : Word) : Chi :=
  if c.cpuSelB then { c with txHoldB := v, txUsedB := false } else { c with txHoldA := v, txUsedA := false }

/-- The module is held in reset (R577): counters and pointer at their initial values; the core's half-frame is A and no register counts as
unread or used up (DESIGN CHOICE, log entry 39). -/
def Chi.off (c : Chi) : Chi :=
  { Chi.reset with
    ctl := c.ctl, ptrEn := c.ptrEn, rxPtrA := c.rxPtrA, rxPtrB := c.rxPtrB, txPtrA := c.txPtrA, txPtrB := c.txPtrB, size := c.size,
    rxStart := c.rxStart, txStart := c.txStart, txHoldA := c.txHoldA, txHoldB := c.txHoldB, rxHoldA := c.rxHoldA, rxHoldB := c.rxHoldB,
    txShift := c.txShift, rxShift := c.rxShift, clk := c.clk }

/-- A configuration write: while ENCHI = 1 it must not change anything (R585, U-CHICFG). -/
def Chi.config (c c' : Chi) : Except Refusal Chi := if c.en && c' != c then .error .chiConfig else .ok c'

/-- A write of CHI Control (R585, R590): ENCHI itself may change. -/
def Chi.writeControl (c : Chi) (v : Word) : Except Refusal Chi :=
  if bitOf v 28 then .error .testBit
  else
    let v := v &&& 0x2FFFFFFF
    if c.en && (v &&& ~~~1#32) != (c.ctl &&& ~~~1#32) then .error .chiConfig
    else .ok (let c' := { c with ctl := v }; if c'.en then c' else c'.off)

/-- Writes of `$1D8` to `$1FC` (R590 to R599). -/
def Chi.write (c : Chi) (off : Nat) (v : Word) : Except Refusal Chi :=
  match off with
  | 0x1D8 => c.writeControl v
  | 0x1DC => c.config { c with ptrEn := v &&& 0xFFFF0000 }
  | 0x1E0 => c.config { c with rxPtrA := v &&& 0x1F1F1F1F }
  | 0x1E4 => c.config { c with rxPtrB := v &&& 0x1F1F1F1F }
  | 0x1E8 => c.config { c with txPtrA := v &&& 0x1F1F1F1F }
  | 0x1EC => c.config { c with txPtrB := v &&& 0x1F1F1F1F }
  | 0x1F0 => c.config { c with size := v &&& 0x0000FFFF }
  | 0x1F4 => c.config { c with rxStart := v &&& 0xFFFFFFFC }
  | 0x1F8 => c.config { c with txStart := v &&& 0xFFFFFFFC }
  | 0x1FC => .ok (c.writeHold v)
  | _ => .error .frOffset

/-- CHI Size as read: CHIDMAPTR and the control bits; CHISIZE is write-only (R596, D14). -/
def Chi.readSize (c : Chi) (free : Word) : Word :=
  placed c.dmaPtr 18 ||| (c.size &&& 0x0000C003) ||| (free &&& 0x00003FFC)

end Sys2Proof.Machine
end

