-- ==== Sys2Proof/Machine/Ir.lean ====
section
/-!
DEFINITION. The IR Module (spec/64_io_ir.md R700 to R712): the Consumer IR counters, the carrier detect state machine, the registers
`$0A0` to `$0A8`.
-/

namespace Sys2Proof.Machine

/-- IR Control 1 as read (R710). -/
def Ir.control (i : Ir) : Word := i.ctl1 ||| boolAt i.carDet 24

/-- Writes of `$0A0`, `$0A4`, `$0A8` (R710 to R712): TESTIR must not be set; ENCONSM and ENSTATE going to 1 start their counters. Two points that
R702 and R705 leave open (DESIGN CHOICE, log entry 42): ENCONSM set again drops the byte that was in progress and takes the upper byte of
TXHOLD first, and ENSTATE cleared de-asserts RXPWR at once, without a sample of CARDET. A third: ENSTATE going to 1 loads DELAYVAL and WAITVAL,
so that RXPWR first comes after WAITVAL * (DELAYVAL + 1) clocks where WAITVAL is not 0 (DESIGN CHOICE, log entry 42). A fourth: ENCONSM going to 1
clears the baud and period counters, so that the first byte is taken with the first IRCLK and not BAUDVAL + 1 of them later (DESIGN CHOICE, log entry
42). -/
def Ir.write (i : Ir) (off : Nat) (v : Word) : Except Refusal Ir :=
  match off with
  | 0x0A0 =>
    if bitOf v 4 then .error .testBit else
      let i := if bitOf v 0 && !bitOf i.ctl1 0 then
        { i with baud := 0, width := 0, onCnt := 0, periods := 0, onOff := false, lower := false } else i
      let i := if bitOf v 1 && !bitOf i.ctl1 1 then
        { i with delay := i.ctl2.extractLsb' 8 8, wait := i.ctl2.extractLsb' 0 8 } else i
      .ok { i with ctl1 := v &&& 0x00FF000F, smPower := i.smPower && bitOf v 1 }
  | 0x0A4 => .ok { i with ctl2 := v }
  | 0x0A8 => .ok { i with txHold := v.extractLsb' 0 16, txFull := true }
  | _ => .error .frOffset

/-- The next command byte (R704). With the IR Holding Register empty the old word is sent again or the output idles, as the free bit says
(N64-2, log entry 42). The flag answers whether IRCONSMINT is set. -/
def Ir.nextByte (i : Ir) (late : Bool) : Ir × Bool :=
  if i.lower then
    ({ i with periods := i.inter.extractLsb' 0 7, onOff := i.inter.getLsbD 7, lower := false }, false)
  else if i.txFull || late then
    ({ i with periods := i.txHold.extractLsb' 8 7, onOff := i.txHold.getLsbD 15, inter := i.txHold.extractLsb' 0 8, txFull := false,
              lower := true }, true)
  else ({ i with periods := 0, onOff := false }, false)

/-- A word begins: with its upper byte, or with its lower one where the upper one has no periods (R704). -/
def Ir.nextWord (i : Ir) (late : Bool) : Ir × Bool :=
  let (j, int) := i.nextByte late
  if j.lower && j.periods = 0 then ((j.nextByte late).1, int) else (j, int)

/-- The next command byte that has periods to run: one with a count of 0 runs none, and the byte after it is taken with the same baud clock (R704,
DEDUCED). After a word whose two counts are 0 the output idles: no other word can stand in TXHOLD yet (DESIGN CHOICE, log entry 42). -/
def Ir.nextRun (i : Ir) (late : Bool) : Ir × Bool :=
  if i.lower then
    let j := (i.nextByte late).1
    if j.periods = 0 then j.nextWord late else (j, false)
  else i.nextWord late

/-- One baud clock (R703): the on-time counter freezes at zero, the width counter ends the period. With ONTIME = PER the output is off for one
baud clock of each period, as the formulas have it, against the sentence that it would then never go low (DESIGN CHOICE, log entry 42). The
idle output runs periods too: a word written meanwhile starts at the end of the running one, not with the write (R704 does not say when; DESIGN
CHOICE, log entry 42). -/
def Ir.baudClock (i : Ir) (late : Bool) : Ir × Bool :=
  let on := if i.onCnt = 0 then 0 else i.onCnt - 1
  if i.width != 0 then ({ i with width := i.width - 1, onCnt := on }, false)
  else
    let left := if i.periods = 0 then 0 else i.periods - 1
    let (j, int) := if left = 0 then i.nextRun late else ({ i with periods := left }, false)
    ({ j with width := j.ctl2.extractLsb' 24 8, onCnt := j.ctl2.extractLsb' 16 8 }, int)

/-- One IRCLK (R703, R704). -/
def Dev.irClock (d : Dev) (free : Word) : Dev :=
  if enIrClk d.clk && bitOf d.ir.ctl1 0 then
    if d.ir.baud != 0 then { d with ir := { d.ir with baud := d.ir.baud - 1 } }
    else
      let (i, int) := d.ir.baudClock (bitOf free 0)
      { d with ir := { i with baud := i.ctl1.extractLsb' 16 8 }, intr := d.intr.setIf int 5 17 }
  else d

/-- The Consumer IR level of IROUT (R704, R710): low while no period is to be counted. -/
def Ir.out (i : Ir) : Bool := xor (bitOf i.ctl1 3) (i.onOff && i.periods != 0 && i.onCnt != 0)

/-- The level of RXPWR outside power down (R707, D15). -/
def Ir.rxPwr (i : Ir) : Bool := bitOf i.ctl1 2 || i.smPower

/-- One 7.8 ms clock of the carrier detect state machine (R705). It runs with ENIRCLK = 0 too, which R540 leaves open (DESIGN CHOICE, log entry
42). CARSTINT comes when the state machine lets go of RXPWR, also while the RXPWR register bit keeps the pin asserted (R705, R707; DESIGN CHOICE, log
entry 42). -/
def Dev.carrierClock (d : Dev) : Dev :=
  let i := d.ir
  if bitOf i.ctl1 1 then
    if i.delay != 0 then { d with ir := { i with delay := i.delay - 1 } }
    else
      let wait := if i.wait = 0 then i.ctl2.extractLsb' 0 8 else i.wait - 1
      let power := wait = 0
      { d with ir := { i with delay := i.ctl2.extractLsb' 8 8, wait := wait, smPower := power }
               intr := d.intr.setIf (i.smPower && !power && i.carDet) 5 16 }
  else d

/-- The edges of CARDET since the chip looked last (R706); `level` is what the pin carries. -/
def Dev.carDetEdges (d : Dev) (level : Bool) : Dev :=
  { d with intr := (d.intr.setIf (!d.ir.carDet && level) 5 15).setIf (d.ir.carDet && !level) 5 14
           ir := { d.ir with carDet := level } }

/-- Period and on time of the pulses in IRCLK periods (R703). -/
def Ir.period (i : Ir) : Nat := ((i.ctl2.extractLsb' 24 8).toNat + 1) * ((i.ctl1.extractLsb' 16 8).toNat + 1)
def Ir.onTime (i : Ir) : Nat := (i.ctl2.extractLsb' 16 8).toNat * ((i.ctl1.extractLsb' 16 8).toNat + 1)

end Sys2Proof.Machine
end

