-- ==== Sys2Proof/Machine/Mbus.lean ====
section
/-!
DEFINITION. The Magicbus Module (spec/65_magicbus.md R740 to R762). The transmitter's unit of time is one period of MBUSMCLK; the receiver
is clocked by the line (R746).
-/

namespace Sys2Proof.Machine

/-- Fields of Magicbus Control 1 (R755). -/
def Mbus.isLong (m : Mbus) : Bool := bitOf m.ctl1 1
def Mbus.clkPol (m : Mbus) : Bool := bitOf m.ctl1 4
def Mbus.phaPol (m : Mbus) : Bool := bitOf m.ctl1 5
def Mbus.detClkPol (m : Mbus) : Bool := bitOf m.ctl1 6
def Mbus.detPhaPol (m : Mbus) : Bool := bitOf m.ctl1 7
def Mbus.byteWait (m : Mbus) : Bool := bitOf m.ctl1 9
def Mbus.wordWait (m : Mbus) : Bool := bitOf m.ctl1 8
def Mbus.dtIdle (m : Mbus) : Bool := bitOf m.ctl1 10
def Mbus.rcvPhaPol (m : Mbus) : Bool := bitOf m.ctl1 11
def Mbus.loopback (m : Mbus) : Bool := bitOf m.ctl1 12

/-- Bits of a character (R744). A change of LONG counts at once, for the character that is being sent or received too: one that has sent more bits
than the new size goes on until its counter has run round (R744 does not say; DESIGN CHOICE, log entry 54). -/
def Mbus.size (m : Mbus) : Nat := if m.isLong then 32 else 16

/-- EMPTY (R755). -/
def Mbus.empty (m : Mbus) : Bool := !m.txFull && !m.shiftBusy && m.delay = 0

/-- Magicbus Control 1 as read (R755). -/
def Mbus.control (m : Mbus) : Word := m.ctl1 ||| boolAt m.on 31 ||| boolAt m.empty 30 ||| boolAt m.pin 29

/-- The module is held in reset (R747). -/
def Mbus.off (m : Mbus) : Mbus :=
  { m with on := false, txFull := false, shiftBusy := false, bits := 0, baud := 0, clk := false, data := false, delay := 0, closing := 0,
           rxBits := 0, rxFull := false, detect := 0, dmaCnt := 0, dmaDone := false }

/-! ## The lines (R741, R743, R745, R749) -/

/-- The clock and the data that the transmitter makes: CLKPOL inverts the clock, in Swap Mode too, where the clock stands on MBUSDATA, and
leaves the data that then stands on MBUSCLK as it is (R749; DESIGN CHOICE, log entry 54). The data idles at DTIDLE from the very edge that ends
the last bit on, with PHAPOL = 1 the edge on which the slaves sample that bit (R745 does not say when; DESIGN CHOICE, log entry 54). -/
def Mbus.clkOut (m : Mbus) : Bool := xor m.clk m.clkPol
def Mbus.dataOut (m : Mbus) : Bool := if m.shiftBusy then m.data else m.dtIdle

/-- MBUSCLK and MBUSDATA: low while the module is disabled (R1107), input in slave mode, output in master mode (R741, R756); Swap Mode
exchanges the two (R743). -/
def Mbus.clkLine (m : Mbus) : Bool :=
  if !m.on then false else if m.slave then m.clkPin else if m.shiftBusy && m.shiftSwap then m.dataOut else m.clkOut
def Mbus.dataLine (m : Mbus) : Bool :=
  if !m.on then false else if m.slave then m.dataPin else if m.shiftBusy && m.shiftSwap then m.clkOut else m.dataOut

/-! ## The transmitter (R744, R750) -/

/-- The character in the holding register starts: its first bit stands in bit 31 of the shift register (R744). With PHAPOL = 1 the line keeps
the level `before` until the first rising edge of the clock. -/
def Mbus.starts (m : Mbus) (before : Bool) : Mbus :=
  { m with shift := if m.isLong then m.txHold else m.txHold <<< 16, shiftSwap := m.txSwap, shiftBusy := true, txFull := false, bits := 0,
           baud := m.ctl2.extractLsb' 16 8, clk := false, data := if m.phaPol then before else m.txHold.getLsbD (m.size - 1) }

/-- What follows from the module's own state: the change to slave (R756), the transfer from the holding to the shift register (R744), which comes,
with MBUSTXBUFAVAILINT, after the delay between characters and not before it (R750 does not say; DESIGN CHOICE, log entry 54). Two points that R746
and R756 leave open (DESIGN CHOICE, log entry 54): a slave's transmitter goes on, and loads what it is given, without driving a line; the
change to master and back keeps the bits that the receiver has of a character. -/
def Dev.mbusSettle (d : Dev) : Dev :=
  let m := d.mbus
  let m := { m with slave := bitOf m.ctl1 2 || (bitOf m.ctl1 3 && (m.slave || (!m.txFull && !m.shiftBusy))) }
  let load := m.on && enMbusClk d.clk && m.txFull && !m.shiftBusy && m.delay = 0
  { d with mbus := if load then m.starts m.dtIdle else m, intr := d.intr.setIf load 2 11 }

/-- Delay follows the bit that makes `n` (R750): after a long always, between bytes with ENBYTEWAIT, between words with ENWORDWAIT; the
end of a word is the end of a byte too (DEDUCED, log entry 54). -/
def Mbus.waitAfter (m : Mbus) (n : Nat) : Bool :=
  n % 8 = 0 && (m.byteWait || (n % 16 = 0 && m.wordWait) || (n = 32 && m.isLong))

/-- A character received (R746): the whole Receive Shift Register, as the pseudocode has it; bits 31:16, which the spec calls not valid in word
mode, are then what the register holds there (DESIGN CHOICE, log entry 54). -/
def Dev.mbusTake (d : Dev) (w : Word) : Dev :=
  { d with mbus := { d.mbus with rxHold := w, rxFull := true }, intr := (d.intr.setIf d.mbus.rxFull 2 7).set 2 (bitMask 8) }

/-- A bit reaches the Receive Shift Register; with the 16th or 32nd the character is complete (R746). -/
def Dev.mbusRxBit (d : Dev) (b : Bool) : Dev :=
  let m := d.mbus
  let w := (m.rxShift <<< 1) ||| boolAt b 0
  if m.rxBits.toNat + 1 < m.size then { d with mbus := { m with rxShift := w, rxBits := m.rxBits + 1 } }
  else Dev.mbusTake { d with mbus := { m with rxShift := w, rxBits := 0 } } w

/-- Half a baud clock of the character being sent (R742, R744, R749): with PHAPOL = 1 data goes out on the rising edge of the clock and is
sampled on the falling one, with PHAPOL = 0 the reverse, the first bit before the first edge (DESIGN CHOICE, log entry 54). A character that
waits in the holding register follows the last bit without a gap (R745); where none waits, the line takes DTIDLE with the falling edge that
ends the last bit (DESIGN CHOICE, log entry 54). LOOPBACK hands the inverted level before the edge to the
receiver, on the edge of the transmitter's clock that RCVPHAPOL names (R755); it does so without SLAVE too, the Command Word detector hears
nothing meanwhile, and a character in Swap Mode comes with its data and clock not exchanged (DESIGN CHOICE, log entry 54). During a delay
between the bytes or words of one character the line keeps the last bit with PHAPOL = 1 and shows the next bit with PHAPOL = 0, as after any falling
edge (R745 gives DTIDLE between characters only; DESIGN CHOICE, log entry 54). -/
def Dev.mbusEdge (d : Dev) : Dev :=
  let m := d.mbus
  let rising := !m.clk
  let sampling := rising != m.phaPol
  let shifted := if rising = m.phaPol then m.shift else m.shift <<< 1
  let m' := { m with clk := rising, shift := shifted, data := if sampling then m.data else shifted.getLsbD 31 }
  let d := { d with mbus := m' }
  let d := if m.loopback && rising = m.rcvPhaPol then d.mbusRxBit (!m.data) else d
  if rising then d
  else
    let n := m.bits.toNat + 1
    let last := n = m.size
    let wait := if m.waitAfter n then m.ctl2.extractLsb' 24 8 ++ (0#1) else 0
    if last && m.txFull && wait = 0 then { d with mbus := d.mbus.starts m.data, intr := d.intr.setIf true 2 11 }
    else
      { d with mbus := { d.mbus with bits := if last then 0 else m.bits + 1, shiftBusy := !last, delay := wait }
               intr := d.intr.setIf (last && !m.txFull) 2 9 }

/-- ENMBUS is cleared: two baud clocks after the transmitter is empty the module is off (R747; "a couple" taken as two, log entry 54). The first
half of a baud clock that ends here with the transmitter empty starts the count; the four halves after it are the two baud clocks. A delay between
characters that still runs holds the count up (DESIGN CHOICE, log entry 54: R747 names the holding and the shift register only). -/
def Mbus.close (m : Mbus) : Mbus :=
  if bitOf m.ctl1 0 || !m.empty then { m with closing := 0 }
  else if m.closing = 4 then m.off else { m with closing := m.closing + 1 }

/-- Half a baud clock: of the delay, or of the character being sent; the baud clock stands on MBUSCLK only while bits are sent, and at its low
phase otherwise (R751; DESIGN CHOICE, log entry 54). A slave's transmitter shifts too, with its interrupts, while its lines are inputs (R756; DESIGN
CHOICE, log entry 54). -/
def Dev.mbusHalf (d : Dev) : Dev :=
  let m := d.mbus
  let d := if m.delay != 0 then { d with mbus := { m with delay := m.delay - 1 } } else if m.shiftBusy then d.mbusEdge else d
  { d with mbus := d.mbus.close }

/-- One MBUSMCLK (R751). -/
def Dev.mbusClock (d : Dev) : Dev :=
  let m := d.mbus
  if m.on && enMbusClk d.clk then
    if m.baud != 0 then { d with mbus := { m with baud := m.baud - 1 } }
    else Dev.mbusHalf { d with mbus := { m with baud := m.ctl2.extractLsb' 16 8 } }
  else d

/-! ## The receiver (R746) -/

/-- The Command Word detector: the data line is its clock, the clock line clears it, each as its polarity bit says (R755); the two Command
Detection Bits (R743) make two clocks without a clear (DEDUCED, log entry 41), which resynchronise the receiver: its bit count starts
again (DESIGN CHOICE, log entry 41). -/
def Dev.mbusDetect (d : Dev) (clk data : Bool) : Dev :=
  let m := d.mbus
  let clears := xor clk m.detClkPol
  let tick := xor data m.detPhaPol && !xor m.dataSeen m.detPhaPol
  let n := if clears then 0 else if tick && m.detect != 3 then m.detect + 1 else m.detect
  let found := n = 2 && m.detect = 1
  { d with mbus := { m with detect := n, rxBits := if found then 0 else m.rxBits }, intr := d.intr.setIf found 2 6 }

/-- The two lines as a slave sees them: a bit with every falling edge of MBUSCLK, with RCVPHAPOL every rising one (R742, R746). Without
ENSYSCLK the module sees nothing (R489). CLKPOL does not invert MBUSCLK as an input (R749; DESIGN CHOICE, log entry 54). While the receiver is
not enabled it keeps the bits it has of a character and goes on from them (R746; DESIGN CHOICE, log entry 54). -/
def Dev.mbusLines (d : Dev) : Dev :=
  let m := d.mbus
  let clk := m.clkPin
  let data := m.dataPin
  if clk = m.clkSeen && data = m.dataSeen then d
  else
    let listens := m.on && d.power.ensys && enMbusClk d.clk && m.slave && !m.loopback
    let sampled := listens && clk != m.clkSeen && clk = m.rcvPhaPol
    let d := if listens then d.mbusDetect clk data else d
    let d := if sampled then d.mbusRxBit data else d
    { d with mbus := { d.mbus with clkSeen := clk, dataSeen := data } }

/-- The edges of MBUSINT since the chip looked last (R754). -/
def Dev.setMbusInt (d : Dev) (level : Bool) : Dev :=
  { d with intr := (d.intr.setIf (!d.mbus.pin && level) 2 3).setIf (d.mbus.pin && !level) 2 2
           mbus := { d.mbus with pin := level } }

/-! ## The core and DMA -/

/-- A write of Magicbus Control 1 (R747, R752, R755). -/
def Dev.mbusControl (d : Dev) (v : Word) : Except Refusal Dev :=
  if bitOf v 14 then .error .testBit else
    let start := bitOf v 0 && !bitOf d.mbus.ctl1 0
    let m := { d.mbus with ctl1 := v &&& 0x0001BFFF, on := d.mbus.on || bitOf v 0 }
    let m := if bitOf v 15 || bitOf v 16 then m else { m with dmaCnt := 0, dmaDone := false }
    .ok { d with mbus := m, intr := d.intr.setIf start 2 11 }

/-- A character for the transmitter, from the core or from DMA (R744, R758); a module that is off takes none. Whether a full holding
register takes it is in no source (N65-2, log entry 41): it keeps its own when `keep` says so. -/
def Dev.mbusSend (d : Dev) (v : Word) (swap keep : Bool) : Dev :=
  if d.mbus.on then
    let m := if d.mbus.txFull && keep then d.mbus else { d.mbus with txHold := v, txSwap := swap, txFull := true }
    { d with mbus := m, intr := d.intr.setIf d.mbus.txFull 2 10 }
  else d

/-- DMA requests (R752): receive, transmit; a halted module makes none (R540). -/
def Dev.mbusRxReq (d : Dev) : Bool :=
  let m := d.mbus
  enMbusClk d.clk && m.on && m.isLong && bitOf m.ctl1 16 && !m.dmaDone && m.rxFull
def Dev.mbusTxReq (d : Dev) : Bool :=
  let m := d.mbus
  enMbusClk d.clk && m.on && m.isLong && bitOf m.ctl1 15 && !m.dmaDone && !m.txFull

/-- The address of the next transfer (R752). -/
def Mbus.dmaAddr (m : Mbus) : Word := m.dmaStart + placed m.dmaCnt 2

/-- A transfer has been acknowledged (R752); without a module that is on and a DMA enable the count stays 0 (R747, R752). -/
def Dev.mbusAck (d : Dev) : Dev :=
  let (p, stop, half, full) := dmaNext d.mbus.dmaCnt d.mbus.dmaLen (!bitOf d.mbus.ctl1 13)
  if d.mbus.on && (bitOf d.mbus.ctl1 15 || bitOf d.mbus.ctl1 16) then
    { d with mbus := { d.mbus with dmaCnt := p, dmaDone := stop }, intr := (d.intr.setIf half 2 4).setIf full 2 5 }
  else d

/-- Baud rate divisor (R751). -/
def Mbus.divisor (m : Mbus) : Nat := (m.ctl2.extractLsb' 16 8).toNat * 2 + 2

/-- Writes of `$0E0` to `$0F8` (R755 to R762); `free` draws what an overrun leaves. -/
def Dev.mbusWrite (d : Dev) (off : Nat) (v free : Word) : Except Refusal Dev :=
  match off with
  | 0x0E0 => d.mbusControl v
  | 0x0E4 => .ok { d with mbus := { d.mbus with ctl2 := v &&& 0xFFFF0000 } }
  | 0x0E8 => .ok { d with mbus := { d.mbus with dmaStart := v &&& 0xFFFFFFFC } }
  | 0x0EC => .ok { d with mbus := { d.mbus with dmaLen := v.extractLsb' 2 18 } }
  | 0x0F0 => .ok d
  | 0x0F4 => .ok (d.mbusSend v true (bitOf free 0))
  | 0x0F8 => .ok (d.mbusSend v false (bitOf free 0))
  | _ => .error .frOffset

end Sys2Proof.Machine
end

