-- ==== Sys2Proof/Machine/Sib.lean ====
section
/-!
DEFINITION. The SIB Module (spec/67_sib.md R840 to R877). The unit of time is one period of the SIB Master Clock, from which SIBSCLK is
divided (R842).
-/

namespace Sys2Proof.Machine

/-- Fields of SIB Control (R870). -/
def Sib.en (s : Sib) : Bool := bitOf s.ctl 0
def Sib.enSnd (s : Sib) : Bool := bitOf s.ctl 4
def Sib.enTel (s : Sib) : Bool := bitOf s.ctl 5
def Sib.sndSel (s : Sib) : Bool := bitOf s.ctl 6
def Sib.telSel (s : Sib) : Bool := bitOf s.ctl 7
def Sib.snd16 (s : Sib) : Bool := bitOf s.ctl 15
def Sib.tel16 (s : Sib) : Bool := bitOf s.ctl 23
def Sib.mono (s : Sib) : Bool := bitOf s.ctl 28

/-- The 16-bit sample of a holding word in frame `f` (R850): halves high first, or bytes high first with eight zero bits. -/
def sampleOf (hold : Word) (wide : Bool) (f : BitVec 2) : BitVec 16 :=
  if wide then (if f.getLsbD 0 then hold.extractLsb' 0 16 else hold.extractLsb' 16 16)
  else hold.extractLsb' (24 - 8 * f.toNat) 8 ++ (0#8)

/-- A received sample placed in a holding word, mirroring `sampleOf` (R853, D17). -/
def placeSample (hold : Word) (wide : Bool) (f : BitVec 2) (v : BitVec 16) : Word :=
  if wide then (if f.getLsbD 0 then maskedWrite 0x0000FFFF hold (zext v) else maskedWrite 0xFFFF0000 hold (placed v 16))
  else
    let lo := 24 - 8 * f.toNat
    maskedWrite (0xFF#32 <<< lo) hold (placed (v.extractLsb' 8 8) lo)

/-- Left and right samples of stereo sound in subframe 1 (R851). -/
def stereoOf (hold : Word) (wide : Bool) (f : BitVec 2) : BitVec 16 × BitVec 16 :=
  if wide then (hold.extractLsb' 16 16, hold.extractLsb' 0 16)
  else if f.getLsbD 0 then (hold.extractLsb' 8 8 ++ (0#8), hold.extractLsb' 0 8 ++ (0#8))
  else (hold.extractLsb' 24 8 ++ (0#8), hold.extractLsb' 16 8 ++ (0#8))

/-- Received stereo sound placed in a holding word (R853). -/
def placeStereo (hold : Word) (wide : Bool) (f : BitVec 2) (l r : BitVec 16) : Word :=
  if wide then l ++ r
  else if f.getLsbD 0 then maskedWrite 0x0000FFFF hold (zext (l.extractLsb' 8 8 ++ r.extractLsb' 8 8))
  else maskedWrite 0xFFFF0000 hold (placed (l.extractLsb' 8 8 ++ r.extractLsb' 8 8) 16)

/-- The holding word is complete after frame `f`: every frame, every second, or every fourth (R850, R851). -/
def wordDone (wide stereo : Bool) (f : BitVec 2) : Bool :=
  match wide, stereo with
  | true, true => true
  | true, false => f.getLsbD 0
  | false, true => f.getLsbD 0
  | false, false => f = 3

/-- The shift register of a transmitted subframe: SR[64:49], SR[48:33], SR[32:17], SR[16:1]; `vs`, `vt` the valid flags (R850 to R852).
A field that no table fills is zero; with sound and telecom both in subframe 1 SR[32:17] carries telecom and SR[33] is VT, as R852 has it, and not
sf1aux[16], as R851 has it. In a subframe without a new sample the sample fields carry the next sample of the holding word already, with the
valid flag 0 (R850 does not say what they carry; DESIGN CHOICE, log entry 40 for both). -/
def Sib.txShift (s : Sib) (second vs vt : Bool) : BitVec 64 :=
  let tel := sampleOf s.telTxHold s.tel16 s.telFrame
  let snd := sampleOf s.sndTxHold s.snd16 s.sndFrame
  if second then
    let (l, r) := if s.mono then (snd, snd) else stereoOf s.sndTxHold s.snd16 s.sndFrame
    let f1 := if s.sndSel then l else 0
    let f3 := if s.telSel then tel else if s.sndSel then r else 0
    let hi : BitVec 16 := s.sf1aux.extractLsb' 16 16
    let hi := if s.telSel then s.sf1aux.extractLsb' 17 15 ++ BitVec.ofBool vt else hi
    f1 ++ hi ++ f3 ++ s.sf1aux.extractLsb' 0 16
  else
    let f1 := if s.sndSel then 0 else snd
    let f3 := if s.telSel then 0 else tel
    f1 ++ (s.sf0aux.extractLsb' 18 14 ++ BitVec.ofBool vs ++ BitVec.ofBool vt) ++ f3 ++ s.sf0aux.extractLsb' 0 16

/-- A valid sound sample of this subframe is received (R853). A word that is complete while the request of the one before still waits asks for
nothing more: one transfer serves both (R521 gives one request a source; DESIGN CHOICE, log entry 40). -/
def Sib.takeSound (s : Sib) (second : Bool) (rx : BitVec 64) : Sib :=
  let l : BitVec 16 := rx.extractLsb' 48 16
  let r : BitVec 16 := rx.extractLsb' 16 16
  let stereo := second && !s.mono
  let hold :=
    if stereo then placeStereo s.sndRxHold s.snd16 s.sndFrame l r
    else placeSample s.sndRxHold s.snd16 s.sndFrame (if second && bitOf s.ctl 27 then r else l)
  let done := wordDone s.snd16 stereo s.sndFrame && !s.sndDone
  { s with sndRxHold := hold, sndFrame := s.sndFrame + 1, sndRxReq := s.sndRxReq || (done && bitOf s.dmaCtl 17),
           sndTxReq := s.sndTxReq || (done && bitOf s.dmaCtl 16) }

/-- A valid telecom sample of this subframe is received (R853); requests are joined as those of sound are. -/
def Sib.takeTel (s : Sib) (rx : BitVec 64) : Sib :=
  let done := wordDone s.tel16 false s.telFrame && !s.telDone
  { s with telRxHold := placeSample s.telRxHold s.tel16 s.telFrame (rx.extractLsb' 16 16), telFrame := s.telFrame + 1,
           telRxReq := s.telRxReq || (done && bitOf s.dmaCtl 1), telTxReq := s.telTxReq || (done && bitOf s.dmaCtl 0) }

/-- The valid flags and the status register of a received subframe (R847, R853, R858). With SELSNDSF1 = 1 the valid sound flag is bit 17 of SF1STAT,
its place in subframe 0: R851 has no such flag in subframe 1 (DESIGN CHOICE, log entry 40). -/
def Dev.sibStatus (d : Dev) (second : Bool) (rx : BitVec 64) : Dev :=
  let s := d.sib
  let stat : Word := rx.extractLsb' 32 16 ++ rx.extractLsb' 0 16
  let snd := if s.sndSel = second then bitOf stat 17 else s.sndValid
  let tel := if s.telSel = second then bitOf stat 16 else s.telValid
  let s' := { s with sndValid := snd, telValid := tel }
  { d with
    sib := if second then { s' with sf1stat := stat } else { s' with sf0stat := stat }
    intr := (((d.intr.setIf (!s.sndValid && snd) 1 14).setIf (s.sndValid && !snd) 1 13).setIf (!s.telValid && tel) 1 12).setIf
      (s.telValid && !tel) 1 11 }

/-- ENSFn of a subframe (R854). -/
def Sib.enSub (s : Sib) (second : Bool) : Bool := bitOf s.ctl (if second then 2 else 1)

/-- The sample counters start at the frame start that follows the subframe with the enable command; that frame carries the first sample
(R844, R855). -/
def Sib.startCounters (s : Sib) (second : Bool) : Sib :=
  let s :=
    if !second && s.sndRun = 1 then { s with sndRun := 2, sndRate := s.ctl.extractLsb' 8 7, sndDue := true, sndFrame := 0 }
    else if s.enSnd && s.sndRun = 0 && s.sndSel = second then { s with sndRun := 1 } else s
  if !second && s.telRun = 1 then { s with telRun := 2, telRate := s.ctl.extractLsb' 16 7, telDue := true, telFrame := 0 }
  else if s.enTel && s.telRun = 0 && s.telSel = second then { s with telRun := 1 } else s

/-- One clock of the sample rate counters, two a subframe (R844). -/
def Sib.rateClock (s : Sib) : Sib :=
  let s := if s.sndRun != 2 then s
    else if s.sndRate = 0 then { s with sndRate := s.ctl.extractLsb' 8 7, sndDue := true } else { s with sndRate := s.sndRate - 1 }
  if s.telRun != 2 then s
  else if s.telRate = 0 then { s with telRate := s.ctl.extractLsb' 16 7, telDue := true } else { s with telRate := s.telRate - 1 }

/-- A subframe starts: its interrupt (R858), the samples that it carries, the word that it sends, zeros while it is disabled (R844, R850
to R854). A sample scheduled by this very clock is carried, and the transmitter looks at ENSFn here only, the receiver at the end of the subframe
only (R854 does not say what a change in its middle does; DESIGN CHOICE, log entry 40). -/
def Dev.sibStart (d : Dev) (second : Bool) : Dev :=
  let s := d.sib.startCounters second
  let on := s.enSub second
  let vs := on && s.sndRun = 2 && s.sndDue && s.sndSel = second
  let vt := on && s.telRun = 2 && s.telDue && s.telSel = second
  { d with
    sib := { s with framed := true, sndNow := vs, telNow := vt, sndDue := s.sndDue && !vs, telDue := s.telDue && !vt,
                    shift := if on then s.txShift second vs vt else 0 }
    intr := d.intr.set 1 (bitMask (if second then 7 else 8)) }

/-- A subframe ends: its status, and the samples that it brought (R853, R858); a disabled one is not processed (R854), nor are the two SIBSCLK
cycles before the first frame one (R846). -/
def Dev.sibEnd (d : Dev) (second : Bool) : Dev :=
  let s := d.sib
  if s.framed && s.enSub second then
    let d := d.sibStatus second s.shift
    let sndWord := s.sndNow && wordDone s.snd16 (second && !s.mono) s.sndFrame
    let telWord := s.telNow && wordDone s.tel16 false s.telFrame
    let s1 := if s.sndNow then d.sib.takeSound second s.shift else d.sib
    let s2 := if s.telNow then s1.takeTel s.shift else s1
    { d with sib := { s2 with sndNow := false, telNow := false }, intr := (d.intr.setIf sndWord 1 10).setIf telWord 1 9 }
  else d

/-- A rising edge of SIBSCLK: the next bit of the frame goes out; SIBSYNC is asserted for the cycle before a frame (R841, R843). -/
def Dev.sibRise (d : Dev) : Dev :=
  let p := d.sib.pos + 1
  let d := { d with sib := { d.sib with pos := p, sync := p = 127 } }
  let d := if p.toNat % 32 = 0 then { d with sib := d.sib.rateClock } else d
  let d := if p.toNat % 64 = 0 then d.sibStart (p.getLsbD 6) else d
  { d with sib := { d.sib with dout := d.sib.shift.getLsbD 63 } }

/-- A falling edge of SIBSCLK: SIBDIN is sampled (R843); SIBLOOP takes the inverted SIBDOUT in its place (R870). -/
def Dev.sibFall (d : Dev) (pin : Bool) : Dev :=
  let b := if bitOf d.sib.ctl 3 then !d.sib.dout else pin
  let d := { d with sib := { d.sib with shift := (d.sib.shift <<< 1) ||| (if b then 1 else 0) } }
  if d.sib.pos.toNat % 64 = 63 then d.sibEnd (d.sib.pos.getLsbD 6) else d

/-- The start and stop values of the SIBSCLK counter (R870). -/
def Sib.sclkRange (s : Sib) : BitVec 4 × BitVec 4 :=
  match (s.ctl.extractLsb' 24 3).toNat with
  | 0 => (7, 8) | 1 => (6, 8) | 2 => (6, 9) | 3 => (5, 9) | 4 => (5, 10) | 5 => (4, 11) | 6 => (3, 12) | _ => (2, 13)

/-- One period of the SIB Master Clock (R842, R870): SIBSCLK is the most significant bit of its counter; `pin` is the level of SIBDIN. Where
SIBSCLKDIV is changed while ENSIB = 1 and the counter is past the new stop value, it runs on through 15 and 0 up to it (R870 does not say; DESIGN
CHOICE, log entry 40). -/
def Dev.sibClock (d : Dev) (pin : Bool) : Dev :=
  let s := d.sib
  if s.en && enSibClk d.clk then
    let (start, stop) := s.sclkRange
    let c := if s.sclkCnt = stop then start else s.sclkCnt + 1
    let d' := { d with sib := { s with sclkCnt := c } }
    match s.sclkCnt.getLsbD 3, c.getLsbD 3 with
    | false, true => d'.sibRise
    | true, false => d'.sibFall pin
    | _, _ => d'
  else d

/-- The sound input clips in subframe 1: how that is seen is in no source (R858, N67-4). -/
def Dev.sibClip (d : Dev) (left right : Bool) : Dev :=
  if d.sib.en && enSibClk d.clk && d.sib.enSub true then { d with intr := (d.intr.setIf left 1 16).setIf right 1 15 } else d

/-- The SIBSCLK output (R841). -/
def Sib.sclk (s : Sib) : Bool := s.sclkCnt.getLsbD 3

/-- The edges of SIBIRQ since the chip looked last (R858). -/
def Dev.setSibIrq (d : Dev) (level : Bool) : Dev :=
  { d with intr := (d.intr.setIf (!d.sib.irq && level) 1 6).setIf (d.sib.irq && !level) 1 5
           sib := { d.sib with irq := level } }

/-- DMA requests of the two generators (R856), and whether the receive transfer comes first. -/
def Sib.sndReq (s : Sib) : Bool := s.sndRxReq || s.sndTxReq
def Sib.telReq (s : Sib) : Bool := s.telRxReq || s.telTxReq
def Sib.sndRxNext (s : Sib) : Bool := s.sndRxReq && (bitOf s.dmaCtl 30 || !s.sndTxReq)
def Sib.telRxNext (s : Sib) : Bool := s.telRxReq && (bitOf s.dmaCtl 14 || !s.telTxReq)

/-- Transfer addresses (R856). -/
def Sib.sndAddr (s : Sib) (rx : Bool) : Word := (if rx then s.sndRxStart else s.sndTxStart) + placed s.sndPtr 2
def Sib.telAddr (s : Sib) (rx : Bool) : Word := (if rx then s.telRxStart else s.telTxStart) + placed s.telPtr 2

/-- A sound transfer has been acknowledged: the pointer moves when both directions are served (R856); a module that was disabled meanwhile
has no request any more and stays in reset (R870). SNDDMACNTINT is set at the end of the buffer too, where the pointer wraps or stops (R641 and R856
speak of its increments; DESIGN CHOICE, log entry 40). -/
def Dev.sndAck (d : Dev) (rx : Bool) : Dev :=
  let s := if rx then { d.sib with sndRxReq := false } else { d.sib with sndTxReq := false }
  if !(if rx then d.sib.sndRxReq else d.sib.sndTxReq) then d
  else if s.sndReq then { d with sib := s }
  else
    let (p, stop, half, full) := dmaNext s.sndPtr (s.size.extractLsb' 18 12) (bitOf s.dmaCtl 31)
    { d with sib := { s with sndPtr := p, sndDone := stop }
             intr := ((d.intr.set 1 (bitMask 18)).setIf half 1 22).setIf full 1 21 }

/-- A telecom transfer has been acknowledged (R856), with TELDMACNTINT at the end of the buffer too (DESIGN CHOICE, log entry 40). -/
def Dev.telAck (d : Dev) (rx : Bool) : Dev :=
  let s := if rx then { d.sib with telRxReq := false } else { d.sib with telTxReq := false }
  if !(if rx then d.sib.telRxReq else d.sib.telTxReq) then d
  else if s.telReq then { d with sib := s }
  else
    let (p, stop, half, full) := dmaNext s.telPtr (s.size.extractLsb' 2 12) (bitOf s.dmaCtl 15)
    { d with sib := { s with telPtr := p, telDone := stop }
             intr := ((d.intr.set 1 (bitMask 17)).setIf half 1 20).setIf full 1 19 }

/-- ENSIB = 0: the module is held in reset but for SIB Control (R870). What has no reset value keeps its own, so that it can be
programmed while the module is disabled (R855); DMA Control is cleared when ENSIB goes to 0 (log entry 40). -/
def Sib.off (s : Sib) : Sib :=
  { s with sclkCnt := s.sclkRange.1, pos := 126, sync := false, dout := false, shift := 0, framed := false, sndValid := false, telValid := false, dmaCtl := 0,
           sndPtr := 0, telPtr := 0, sndDone := false, telDone := false, sndRxReq := false, sndTxReq := false, telRxReq := false,
           telTxReq := false, sndNow := false, telNow := false }

/-- ENSND = 0, ENTEL = 0: no sample is due, and the counters wait for the next start (R855). -/
def Sib.stopSnd (s : Sib) : Sib := { s with sndRate := 0, sndDue := false, sndNow := false, sndRun := 0, sndFrame := 0 }
def Sib.stopTel (s : Sib) : Sib := { s with telRate := 0, telDue := false, telNow := false, telRun := 0, telFrame := 0 }

/-- A write of SIB Control (R855, R870). -/
def Sib.writeControl (s : Sib) (v : Word) : Except Refusal Sib :=
  if bitOf v 30 || bitOf v 29 then .error .testBit else
    let was := s.en
    let s := { s with ctl := v &&& 0x1FFFFFFF }
    let s := if was && !s.en then s.off else if !s.en then { s with sclkCnt := s.sclkRange.1 } else s
    let s := if s.en && s.enSnd then s else s.stopSnd
    .ok (if s.en && s.enTel then s else s.stopTel)

/-- Reads of `$074` to `$090` (R870 to R877); the registers below are write-only. R131 lists the receive holding registers among the reads with
a side effect, but R871 and R872 give none: such a read does nothing else (DESIGN CHOICE, log entry 20). -/
def Sib.read (s : Sib) (off : Nat) : Option Word :=
  match off with
  | 0x074 => some (s.ctl ||| boolAt s.irq 31)
  | 0x078 => some s.sndRxHold
  | 0x07C => some s.telRxHold
  | 0x080 => some s.sf0aux
  | 0x084 => some s.sf1aux
  | 0x088 => some s.sf0stat
  | 0x08C => some s.sf1stat
  | 0x090 => some (s.dmaCtl ||| placed s.sndPtr 18 ||| placed s.telPtr 2)
  | _ => none

/-- Writes of `$060` to `$090` (R860 to R877). A one-time DMA that has stopped may start again once both its enables have been written 0; its pointer
stays at the size, so that the next transfer is of the last word again (R856 does not say how it starts again; DESIGN CHOICE, log entry 40). A
request that waits when its enable, or ENSND or ENTEL, is cleared is still served and moves the pointer (R870, R877 do not say; DESIGN CHOICE, log
entry 40). -/
def Sib.write (s : Sib) (off : Nat) (v : Word) : Except Refusal Sib :=
  match off with
  | 0x060 => .ok { s with size := v &&& 0x3FFC3FFC }
  | 0x064 => .ok { s with sndRxStart := v &&& 0xFFFFFFFC }
  | 0x068 => .ok { s with sndTxStart := v &&& 0xFFFFFFFC }
  | 0x06C => .ok { s with telRxStart := v &&& 0xFFFFFFFC }
  | 0x070 => .ok { s with telTxStart := v &&& 0xFFFFFFFC }
  | 0x074 => s.writeControl v
  | 0x078 => .ok { s with sndTxHold := v }
  | 0x07C => .ok { s with telTxHold := v }
  | 0x080 => .ok { s with sf0aux := v }
  | 0x084 => .ok { s with sf1aux := v }
  | 0x088 | 0x08C => .ok s
  | 0x090 => .ok { s with dmaCtl := v &&& 0xC003C003, sndDone := s.sndDone && (v &&& 0x00030000) != 0,
                          telDone := s.telDone && (v &&& 0x3) != 0 }
  | _ => .error .frOffset

/-- The divide modulus of SIBSCLK (R870), and the sample rate divisor of SIBSCLK (R844). -/
def Sib.sclkModulus (s : Sib) : Nat := s.sclkRange.2.toNat - s.sclkRange.1.toNat + 1
def sampleDivisor (fsdiv : BitVec 7) : Nat := (fsdiv.toNat + 1) * 32

end Sys2Proof.Machine
end

