-- ==== Sys2Proof/Machine/Spi.lean ====
section
/-!
DEFINITION. The SPI Module (spec/68_spi_timer_uart.md R910 to R917). The unit of time is one period of SPIMCLK.
-/

namespace Sys2Proof.Machine

/-- Fields of SPI Control (R915). -/
def Spi.wide (s : Spi) : Bool := bitOf s.ctl 2
def Spi.lsbFirst (s : Spi) : Bool := bitOf s.ctl 1
def Spi.clkPol (s : Spi) : Bool := bitOf s.ctl 4
def Spi.phaPol (s : Spi) : Bool := bitOf s.ctl 5

/-- Bits of a character (R912). -/
def Spi.size (s : Spi) : Nat := if s.wide then 16 else 8

/-- EMPTY (R915). -/
def Spi.empty (s : Spi) : Bool := !s.txFull && !s.shiftBusy && s.delay = 0

/-- SPI Control as read (R915). -/
def Spi.control (s : Spi) : Word := s.ctl ||| boolAt s.on 17 ||| boolAt s.empty 16

/-- The bit of the Shift Register that goes out next (R912). -/
def Spi.nextOut (s : Spi) : Bool := if s.lsbFirst then s.shift.getLsbD 0 else s.shift.getLsbD (s.size - 1)

/-- A bit is shifted in, the one that has gone out leaves (R912). -/
def Spi.shiftIn (s : Spi) (b : Bool) : Spi :=
  let v : BitVec 16 := if b then 1 else 0
  { s with shift := if s.lsbFirst then (s.shift >>> 1) ||| (v <<< (s.size - 1)) else (s.shift <<< 1) ||| v }

/-- Data goes out on the rising edge of SPICLK with PHAPOL = 1 and comes in on the falling one, and the reverse with PHAPOL = 0 (R912);
for the combinations of lost figures DESIGN CHOICE, log entry 53. After the last bit SPIOUT keeps it, or, where the first bit was out before the first
edge, the last edge puts the first received bit on it (R912 does not say; DESIGN CHOICE, log entry 53). -/
def Spi.edge (s : Spi) (pin : Bool) : Spi :=
  let rising := !s.clk
  let s := { s with clk := rising, halves := s.halves + 1 }
  if rising = s.phaPol then { s with out := s.nextOut } else s.shiftIn pin

/-- The level at which SPICLK idles (R912). -/
def Spi.idles (s : Spi) : Spi := if s.shiftBusy then s else { s with clk := s.clkPol }

/-- The character in the Shift Register starts: when the first edge brings data in, its first bit is out before it. -/
def Spi.starts (s : Spi) : Spi :=
  let s := { s with shift := if s.wide then s.txHold else s.txHold &&& 0xFF, shiftBusy := true, txFull := false,
                    baud := s.ctl.extractLsb' 8 4, halves := 0 }
  if s.clk = s.phaPol then { s with out := s.nextOut } else s

/-- The shut down of R916 and the transfer to the Shift Register of R912. -/
def Dev.spiSettle (d : Dev) : Dev :=
  let s := d.spi
  let run := s.on && enSpiClk d.clk
  let s := if run && !bitOf s.ctl 0 && !s.txFull && !s.shiftBusy then { s with on := false, delay := 0, out := false } else s
  let load := s.on && run && s.txFull && !s.shiftBusy && s.delay = 0
  { d with spi := if load then s.starts else s.idles
           intr := d.intr.setIf load 5 21 }

/-- The character is complete: the bits received, and the delay of DELAYVAL periods of SPICLK (R912). -/
def Spi.finish (s : Spi) : Spi :=
  let v := if s.wide then s.shift else s.shift &&& 0xFF
  { s with shift := v, rxHold := v, shiftBusy := false, delay := s.ctl.extractLsb' 12 4 ++ (0#1) }

/-- Half a period of SPICLK: an edge of the character, or of the delay. The flag answers whether the character is complete. -/
def Spi.half (s : Spi) (pin : Bool) : Spi × Bool :=
  if s.shiftBusy then
    let s := s.edge pin
    if s.halves.toNat = 2 * s.size then (s.finish, true) else (s, false)
  else ({ s with delay := if s.delay = 0 then 0 else s.delay - 1 }, false)

/-- One SPIMCLK (R911, R912): `pin` is the level of SPIIN. -/
def Dev.spiClock (d : Dev) (pin : Bool) : Dev :=
  let s := d.spi
  if s.on && enSpiClk d.clk then
    if s.baud != 0 then { d with spi := { s with baud := s.baud - 1 } }
    else
      let (s, done) := ({ s with baud := s.ctl.extractLsb' 8 4 }).half pin
      { d with spi := s, intr := (d.intr.setIf done 5 19).setIf (done && !s.txFull) 5 18 }
  else d

/-- Writes of `$160` and `$164` (R912, R915, R917); a module that is off takes no character. -/
def Dev.spiWrite (d : Dev) (off : Nat) (v : Word) : Except Refusal Dev :=
  match off with
  | 0x160 =>
    let start := bitOf v 0 && !bitOf d.spi.ctl 0
    .ok { d with spi := { d.spi with ctl := v &&& 0x0000FF37, on := d.spi.on || bitOf v 0 }, intr := d.intr.setIf start 5 21 }
  | 0x164 =>
    if d.spi.on then
      .ok { d with spi := { d.spi with txHold := v.extractLsb' 0 16, txFull := true }, intr := d.intr.setIf d.spi.txFull 5 20 }
    else .ok d
  | _ => .error .frOffset

/-- Baud rate divisor (R911). -/
def Spi.divisor (s : Spi) : Nat := (s.ctl.extractLsb' 8 4).toNat * 2 + 2

end Sys2Proof.Machine
end

