-- ==== Sys2Proof/Machine/Timer.lean ====
section
/-!
DEFINITION. The Timer Module (spec/68_spi_timer_uart.md R920 to R927): the real time clock, the alarm, the periodic timer.
-/

namespace Sys2Proof.Machine

/-- The count after one clock of the RTC (R921); with ENRTCTST every 8-bit stage counts (R926). -/
def rtcNext (rtc : BitVec 40) (ctl : Word) : BitVec 40 :=
  let low : BitVec 8 := rtc.extractLsb' 0 8
  let high : BitVec 32 := rtc.extractLsb' 8 32
  let frozenLow := bitOf ctl 7
  let frozenHigh := bitOf ctl 6
  if bitOf ctl 3 then 0
  else if bitOf ctl 0 then
    let high' : BitVec 32 := (high.extractLsb' 24 8 + 1) ++ (high.extractLsb' 16 8 + 1) ++ (high.extractLsb' 8 8 + 1) ++
      (high.extractLsb' 0 8 + 1)
    (if frozenHigh then high else high') ++ (if frozenLow then low else low + 1)
  else
    let carry := !frozenLow && low = 0xFF
    (if carry && !frozenHigh then high + 1 else high) ++ (if frozenLow then low else low + 1)

/-- One clock of the RTC: the count and the interrupts RTCINT and ALARMINT (R921). -/
def Dev.rtcClock (d : Dev) : Dev :=
  let n := rtcNext d.timer.rtc d.timer.ctl
  let live := !bitOf d.timer.ctl 3
  { d with
    timer := { d.timer with rtc := n, rtcOld := d.timer.rtc, rtcTorn := true, phase := !d.timer.phase }
    intr := (d.intr.setIf (live && n = BitVec.allOnes 40) 5 31).setIf (live && n = d.timer.alarm) 5 30 }

/-- The low stage of the RTC counts, from which the 8 ms reference comes: not with FREEZEPRE, nor while RTCCLR holds it (R926). -/
def Timer.refRuns (t : Timer) : Bool := !bitOf t.ctl 7 && !bitOf t.ctl 3

/-- The 8 ms reference ticks with this clock: the carry of the low stage, or every second clock with TESTC8MS (R926). -/
def Timer.refTick (t : Timer) : Bool :=
  t.refRuns && (if bitOf t.ctl 2 then t.phase else t.rtc.extractLsb' 0 8 = 0xFF)

/-- One TIMERCLK of the periodic timer (R923). -/
def Dev.periodicClock (d : Dev) : Dev :=
  if bitOf d.timer.ctl 4 && !bitOf d.timer.ctl 5 then
    let z := d.timer.perCnt = 0
    { d with
      timer := { d.timer with perCnt := if z then d.timer.perVal else d.timer.perCnt - 1, perOld := d.timer.perCnt, perTorn := true }
      intr := d.intr.setIf z 5 29 }
  else d

/-- A read that may meet a count: the new value, or the old one as the bit says (R922, U-RTC). -/
def tornRead {n : Nat} (torn : Bool) (bit : Bool) (new old : BitVec n) : BitVec n :=
  if !torn || new = old then new else if bit then old else new

/-- Reads of `$140` to `$154` (R924 to R927): the value and the module after it. -/
def Timer.read (t : Timer) (off : Nat) (free : Word) : Option (Word × Timer) :=
  match off with
  | 0x140 =>
    some (zext ((tornRead t.rtcTorn (bitOf free 0) t.rtc t.rtcOld).extractLsb' 32 8), { t with rtcTorn := false })
  | 0x144 =>
    some ((tornRead t.rtcTorn (bitOf free 0) t.rtc t.rtcOld).extractLsb' 0 32, { t with rtcTorn := false })
  | 0x148 => some (zext (t.alarm.extractLsb' 32 8), t)
  | 0x14C => some (t.alarm.extractLsb' 0 32, t)
  | 0x150 => some (t.ctl, t)
  | 0x154 =>
    some (placed (tornRead t.perTorn (bitOf free 0) t.perCnt t.perOld) 16 ||| placed t.perVal 0, { t with perTorn := false })
  | _ => none

/-- A write of Timer Control (R926): ENPERTIMER going to 1 loads the counter (R923), RTCCLR clears the RTC (R921); neither leaves an
earlier count for a read to meet. -/
def Timer.writeControl (t : Timer) (v : Word) : Timer :=
  let load := bitOf v 4 && !bitOf t.ctl 4
  let t := if load then { t with perCnt := t.perVal, perOld := t.perVal, perTorn := false } else t
  let t := if bitOf v 3 then { t with rtc := 0, rtcOld := 0, rtcTorn := false } else t
  { t with ctl := v &&& 0xFF }

/-- Writes of `$140` to `$154`: the RTC registers store nothing (D14). -/
def Timer.write (t : Timer) (off : Nat) (v : Word) : Except Refusal Timer :=
  match off with
  | 0x140 | 0x144 => .ok t
  | 0x148 => .ok { t with alarm := v.extractLsb' 0 8 ++ t.alarm.extractLsb' 0 32 }
  | 0x14C => .ok { t with alarm := t.alarm.extractLsb' 32 8 ++ v }
  | 0x150 => .ok (t.writeControl v)
  | 0x154 => .ok { t with perVal := v.extractLsb' 0 16 }
  | _ => .error .frOffset

/-- The interrupt period of the periodic timer in TIMERCLK periods (R923). -/
def Timer.period (t : Timer) : Nat := t.perVal.toNat + 1

end Sys2Proof.Machine
end

