-- ==== Sys2Proof/Machine/Uart.lean ====
section
/-!
DEFINITION. The UART Module (spec/68_spi_timer_uart.md R930 to R957): two identical UARTs. A flag says which: false UARTA, true UARTB.
The unit of time is one period of UARTCLK; sixteen of the baud rate counter's are a baud period (R932).
-/

namespace Sys2Proof.Machine

/-- The UART that the flag names. -/
def Dev.uart (d : Dev) (b : Bool) : Uart := if b then d.uartB else d.uartA

/-- The device with that UART replaced and the interrupts of register 2 updated. -/
def Dev.withUart (d : Dev) (b : Bool) (u : Uart) (i : Intr) : Dev :=
  if b then { d with uartB := u, intr := i } else { d with uartA := u, intr := i }

/-- Bit `k` of UARTA's interrupts in Status 2; UARTB's lie ten lower (R941). -/
def uartBit (b : Bool) (k : Nat) : Nat := if b then k - 10 else k

/-- The clock of the UART (R931). -/
def Dev.uartClocked (d : Dev) (b : Bool) : Bool := if b then enUartBClk d.clk else enUartAClk d.clk

/-- Fields of UART Control 1 (R950). -/
def Uart.parityOn (u : Uart) : Bool := bitOf u.ctl1 1
def Uart.sevenBits (u : Uart) : Bool := bitOf u.ctl1 3
def Uart.loopback (u : Uart) : Bool := bitOf u.ctl1 4
def Uart.inverts (u : Uart) : Bool := bitOf u.ctl1 7
def Uart.pulses (u : Uart) : Bool := bitOf u.ctl1 8 || bitOf u.ctl1 9

/-- EMPTY (R950). -/
def Uart.empty (u : Uart) : Bool := !u.txFull && u.shift.isEmpty

/-- UART Control 1 as read (R950). -/
def Uart.control (u : Uart) : Word :=
  u.ctl1 ||| boolAt u.on 31 ||| boolAt u.empty 30 ||| boolAt u.prx.isSome 29 ||| boolAt u.rxFull 28

/-- The module is held in reset (R931). -/
def Uart.off (u : Uart) : Uart :=
  { u with on := false, closing := 0, txFull := false, shift := [], sendsBreak := false, baudCnt := 0, phase := 0, pulse := 0, rxShift := none,
           rxWait := 0, stretch := 0, prx := none, rxFull := false, markWait := false, breakRead := false, dmaCnt := 0,
           dmaDone := false }

/-! ## Transmitter (R933 to R937) -/

/-- The parity bit of a character (R934). -/
def Uart.parityOf (u : Uart) (data : Byte) : Bool :=
  let ones := (List.range 8).foldl (fun acc k => xor acc (data.getLsbD k)) false
  if bitOf u.ctl1 2 then ones else !ones

/-- The data bits of a character: 7 or 8 (R933). -/
def Uart.dataOf (u : Uart) (data : Byte) : Byte := if u.sevenBits then data &&& 0x7F else data

/-- The bits of a transmitted character in line order: start, data LSB first, parity, stops (R933). -/
def Uart.lineBits (u : Uart) (data : Byte) : List Bool :=
  let bits := (List.range (if u.sevenBits then 7 else 8)).map fun k => data.getLsbD k
  [false] ++ bits ++ (if u.parityOn then [u.parityOf (u.dataOf data)] else []) ++ (if bitOf u.ctl1 5 then [true, true] else [true])

/-- What the Transmit Holding Register hands to the shift register: the bits of a character; for BREAK a low line (R937), for the time of a
character with the present settings (DESIGN CHOICE, log entry 36: R937 gives no length). A word with BREAK = 1 is a BREAK whatever its TXDATA is (R937
describes 0x100 only; DESIGN CHOICE, log entry 36). -/
def Uart.loadBits (u : Uart) : List Bool :=
  let bits := u.lineBits (u.txHold.extractLsb' 0 8)
  if u.txHold.getLsbD 8 then bits.map fun _ => false else bits

/-- The bit on the line, before the pulse options, DISTXD, DTINVERT. -/
def Uart.lineBit (u : Uart) : Bool := u.shift.headD true

/-- The transmit signal: a zero lasts six UARTCLK periods with PULSEOPT1, three sixteenths of the bit with PULSEOPT2 (R935). -/
def Uart.txLevel (u : Uart) : Bool :=
  u.lineBit || (bitOf u.ctl1 8 && 6 ≤ u.pulse.toNat) || (bitOf u.ctl1 9 && 3 ≤ u.phase.toNat)

/-- The transmit line (R936): LOOPBACK holds it high, DISTXD low; in this order, and DISTXD after DTINVERT (DESIGN CHOICE, log entry
52). -/
def Uart.txd (u : Uart) : Bool := u.loopback || (!bitOf u.ctl1 6 && xor u.inverts u.txLevel)

/-- The transfer to a free shift register (R933). Between characters the line is marking until the next baud period begins; a BREAK ends
with a word that is no BREAK, and with 0 no character follows (R937): the line is marking for one baud period at least. -/
def Uart.load (u : Uart) (seamless : Bool) : Uart :=
  let ends := u.sendsBreak && !u.txHold.getLsbD 8
  { u with
    shift := if ends && u.txHold = 0 then [] else (if seamless && !ends then [] else [true]) ++ u.loadBits
    sendsBreak := u.txHold.getLsbD 8
    txFull := false }

/-- A baud period ends: the next bit, after the last one the next character; a BREAK lasts until the core writes again (R933, R937), and the word that
ends or prolongs it acts no sooner than at the end of the time that `Uart.loadBits` gives a BREAK word (DESIGN CHOICE, log entry 36). The flags
answer whether UARTnTXINT and UARTnEMPTYINT are set. -/
def Uart.nextBit (u : Uart) : Uart × Bool × Bool :=
  match u.shift with
  | [] => (u, false, false)
  | _ :: b :: bs => ({ u with shift := b :: bs }, false, false)
  | [_] =>
    if u.txFull then let v := u.load true; (v, true, v.empty)
    else if u.sendsBreak then (u, false, false)
    else ({ u with shift := [] }, false, true)

/-! ## Receiver (R935, R936, R938, R939) -/

/-- The receive signal: the transmit signal with LOOPBACK, else the pin (R936). -/
def Uart.rxLevel (u : Uart) (pin : Bool) : Bool := if u.loopback then u.txLevel else xor u.inverts pin

/-- A character reaches PRXHOLD (R938); a BREAK halts the receiver until the line marks, with ENBREAKHALT also until it is read (R939). The bit is
looked at when the BREAK is received: a later change of it neither ends nor begins the wait for the read (DESIGN CHOICE, log entry 36). -/
def Uart.take (u : Uart) (data : Byte) (parity stop : Bool) : Uart :=
  let brk := data = 0 && !stop
  { u with
    prx := some { data := data, frameErr := !stop, parityErr := u.parityOn && parity != u.parityOf data, isBreak := brk,
                  overrun := u.prx.isSome && u.rxFull }
    markWait := u.markWait || brk
    breakRead := u.breakRead || (brk && bitOf u.ctl1 12) }

/-- The data byte of received bits, the first received in the lowest bit (R938). -/
def byteOfBits (bits : List Bool) : Byte := bits.foldr (fun b (v : Byte) => (v <<< 1) ||| (if b then 1 else 0)) 0

/-- A bit is sampled (R938): the data bits, the parity bit, then the stop bit, which completes the character: with
TWOSTOP = 1 the first one, and the second is not checked (R938 speaks of one; DESIGN CHOICE, log entry 52). -/
def Uart.sample (u : Uart) (bits : List Bool) (level : Bool) : Uart :=
  let n := if u.sevenBits then 7 else 8
  if bits.length < n + u.parityOn.toNat then { u with rxShift := some (level :: bits), rxWait := 15 }
  else { u with rxShift := none }.take (byteOfBits (bits.reverse.take n)) (bits.headD false) level

/-- One sixteenth of a baud period of the receiver: a low line is a start bit, and the bits are sampled in their middle (DESIGN CHOICE,
log entry 52), the first one and a half baud periods later. -/
def Uart.receive (u : Uart) (level : Bool) : Uart :=
  match u.rxShift with
  | none => if level || u.markWait || u.breakRead then u else { u with rxShift := some [], rxWait := 23 }
  | some bits => if u.rxWait != 0 then { u with rxWait := u.rxWait - 1 } else u.sample bits level

/-- Baud rate divisor (R932): the UARTCLK periods of a baud period. -/
def Uart.divisor (u : Uart) : Nat := (u.baud.toNat + 1) * 16

/-- The line as the receiver samples it: with a pulse option a low pulse is extended (R935). -/
def Uart.sampled (u : Uart) (level : Bool) : Bool := level && !(u.pulses && u.stretch != 0)

/-- The receive line for one UARTCLK: with a pulse option a low pulse lasts a full baud period at least (R935). -/
def Uart.extend (u : Uart) (level : Bool) : Uart :=
  { u with rxSeen := level
           stretch := if u.pulses && u.rxSeen && !level then BitVec.ofNat 16 u.divisor else if u.stretch = 0 then 0 else u.stretch - 1 }

/-- One sixteenth of a baud period (R932). -/
def Uart.sixteenth (u : Uart) (level : Bool) : Uart × Bool × Bool :=
  let u := u.receive level
  let u := { u with phase := u.phase + 1 }
  if u.phase = 0 then let (v, tx, empty) := u.nextBit; ({ v with pulse := 0 }, tx, empty) else (u, false, false)

/-- One UARTCLK (R932): `pin` is the level of the receive pin. A marking line ends the wait after a BREAK (R939), with
ENBREAKHALT = 1 also before the BREAK is read: a line that is low at the read is then taken as a start bit (R939 does not say whether the line must
be marking at the read; DESIGN CHOICE, log entry 36). -/
def Uart.tick (u : Uart) (pin : Bool) : Uart × Bool × Bool :=
  let raw := u.rxLevel pin
  let u := u.extend raw
  let level := u.sampled raw
  let u := { u with markWait := u.markWait && !level, pulse := if u.pulse = 7 then 7 else u.pulse + 1 }
  if u.baudCnt = 0 then ({ u with baudCnt := u.baud.extractLsb' 0 11 }).sixteenth level
  else ({ u with baudCnt := u.baudCnt - 1 }, false, false)

/-- ENUART is cleared: two UARTCLK periods after the last character the module is off (R931; "a couple of clocks" taken as two, log
entry 52). -/
def Uart.close (u : Uart) : Uart :=
  if bitOf u.ctl1 0 || !u.empty then { u with closing := 0 }
  else if u.closing = 2 then u.off else { u with closing := u.closing + 1 }

/-- A UARTCLK that finds RXHOLD empty and PRXHOLD full moves the character on, with its interrupts (R938). -/
def Dev.uartReceived (d : Dev) (b : Bool) : Dev :=
  let u := d.uart b
  match (if u.rxFull then none else u.prx) with
  | some c =>
    let i := d.intr.set 2 (bitMask (uartBit b 31))
    let i := (((i.setIf c.overrun 2 (uartBit b 30)).setIf c.frameErr 2 (uartBit b 29)).setIf c.isBreak 2 (uartBit b 28)).setIf
      c.parityErr 2 (uartBit b 27)
    d.withUart b { u with rxHold := c.data, rxFull := true, prx := none } i
  | none => d

/-- One UARTCLK of a UART that is on. -/
def Dev.uartClock (d : Dev) (b pin : Bool) : Dev :=
  if (d.uart b).on && d.uartClocked b then
    let d := d.uartReceived b
    let (v, tx, empty) := (d.uart b).tick pin
    d.withUart b v.close ((d.intr.setIf tx 2 (uartBit b 26)).setIf empty 2 (uartBit b 24))
  else d

/-- What follows from the UART's own state: the transfer from the holding to a free shift register (R933). -/
def Dev.uartSettle (d : Dev) (b : Bool) : Dev :=
  let u := d.uart b
  let load := u.on && d.uartClocked b && u.txFull && u.shift.isEmpty
  d.withUart b (if load then u.load false else u) (d.intr.setIf load 2 (uartBit b 26))

/-! ## The core and DMA -/

/-- A character for the transmitter (R933, R955): a full holding register overruns and then holds an undefined value (U-UARTTXOVR). -/
def Dev.uartSend (d : Dev) (b : Bool) (v : BitVec 9) (free : Word) : Dev :=
  let u := d.uart b
  if u.on then
    d.withUart b { u with txHold := if u.txFull then free.extractLsb' 0 9 else v, txFull := true }
      (d.intr.setIf u.txFull 2 (uartBit b 25))
  else d

/-- A read of the Receiver Holding Register (R938, R956); of a BREAK it ends the halt, whatever ENBREAKHALT has become (R939; DESIGN CHOICE, log
entry 36). -/
def Uart.readRx (u : Uart) : Uart :=
  { u with rxFull := false
           breakRead := u.breakRead && (match u.prx with
             | some c => c.isBreak
             | none => false) }

/-- DMA requests (R940): receive, transmit; a halted module makes none (R540). After ENUART is cleared DMA goes on requesting and the receiver
receiving until the module is off, so that transmit DMA, which refills the holding register, holds the shut down up (R931 does not say; DESIGN
CHOICE, log entry 52). -/
def Dev.uartRxReq (d : Dev) (b : Bool) : Bool :=
  let u := d.uart b
  d.uartClocked b && u.on && bitOf u.ctl1 15 && !u.dmaDone && u.rxFull
def Dev.uartTxReq (d : Dev) (b : Bool) : Bool :=
  let u := d.uart b
  d.uartClocked b && u.on && bitOf u.ctl1 14 && !u.dmaDone && !u.txFull

/-- The byte address of the next transfer (R940). -/
def Uart.dmaAddr (u : Uart) : Word := u.dmaStart + zext u.dmaCnt

/-- A transfer has been acknowledged (R940); without a module that is on and a DMA enable the count stays 0 (R931, R940). -/
def Dev.uartAck (d : Dev) (b : Bool) : Dev :=
  let u := d.uart b
  let (p, stop, half, full) := dmaNext u.dmaCnt u.dmaLen (!bitOf u.ctl1 10)
  if u.on && (bitOf u.ctl1 15 || bitOf u.ctl1 14) then
    d.withUart b { u with dmaCnt := p, dmaDone := stop } ((d.intr.setIf half 2 (uartBit b 22)).setIf full 2 (uartBit b 23))
  else d

/-- A write of UART Control 1 (R940, R950). Whether ENUART going to 1 sets UARTnTXINT is in no source: `first` says (N68-2, log
entry 36). -/
def Dev.uartControl (d : Dev) (b : Bool) (v : Word) (first : Bool) : Except Refusal Dev :=
  if bitOf v 13 || bitOf v 11 then .error .testBit
  else if bitOf v 9 && bitOf v 8 then .error .uartPulse
  else if bitOf v 15 && bitOf v 14 then .error .uartDma
  else
    let u := { d.uart b with ctl1 := v &&& 0x0000D7FF, on := (d.uart b).on || bitOf v 0 }
    let u := if bitOf v 15 || bitOf v 14 then u else { u with dmaCnt := 0, dmaDone := false }
    let start := bitOf v 0 && !bitOf (d.uart b).ctl1 0
    .ok (d.withUart b u (d.intr.set 2 (if start && first then bitMask (uartBit b 26) else 0)))

/-- Writes of the six registers, `k` the offset from UART Control 1 (R950 to R956). -/
def Dev.uartWrite (d : Dev) (b : Bool) (variant : Variant) (k : Nat) (v free : Word) : Except Refusal Dev :=
  let u := d.uart b
  match k with
  | 0x00 => d.uartControl b v (bitOf free 16)
  | 0x04 => .ok (d.withUart b { u with baud := v &&& (match variant with
      | .tmpr3911 => 0x3FF
      | .tmpr3912 => 0x7FF) } d.intr)
  | 0x08 => .ok (d.withUart b { u with dmaStart := v &&& 0xFFFFFFFC } d.intr)
  | 0x0C => .ok (d.withUart b { u with dmaLen := v.extractLsb' 0 16 } d.intr)
  | 0x10 => .ok d
  | 0x14 => .ok (d.uartSend b (v.extractLsb' 0 9) free)
  | _ => .error .frOffset

end Sys2Proof.Machine
end

