-- ==== Sys2Proof/Machine/Video.lean ====
section
/-!
DEFINITION. The Video Module (spec/69_video.md R1000 to R1027). The unit of time is one period of VIDCLK. The pixel order in a word and the
on/off bit of a shade in a frame are in no source (N69-1 to N69-3): constants of Config without a body.
-/

namespace Sys2Proof.Machine

/-- Fields of Video Control 1 and 2 (R1020, R1021). -/
def Video.en (v : Video) : Bool := bitOf v.vc1 0
def Video.invVid (v : Video) : Bool := bitOf v.vc1 2
def Video.disp8 (v : Video) : Bool := bitOf v.vc1 4
def Video.split (v : Video) : Bool := bitOf v.vc1 5
def Video.bitSel (v : Video) : BitVec 2 := v.vc1.extractLsb' 6 2
def Video.freezes (v : Video) : Bool := bitOf v.vc1 8
def Video.vidDoneVal (v : Video) : BitVec 7 := v.vc1.extractLsb' 9 7
def Video.baudVal (v : Video) : BitVec 5 := v.vc1.extractLsb' 16 5
def Video.loadDly (v : Video) : Bool := bitOf v.vc1 21
def Video.horzVal (v : Video) : BitVec 9 := v.vc2.extractLsb' 12 9
def Video.vidRate (v : Video) : BitVec 10 := v.vc2.extractLsb' 22 10

/-- Video Control 1 as read (R1020): LINECNT over the stored bits. -/
def Video.control (v : Video) : Word := placed v.line 22 ||| v.vc1

/-- The start of a frame: the bank and the addresses are latched (R1008), the Line Counter is preloaded (R1002), FRAMEMASKVAL lines
follow without VIDDONE (R1003). What was read ahead is dropped, so that the frame starts at VIDBASEHI, and the dithering line counters start
again, so that a pixel has the same pattern in every frame (DESIGN CHOICE, log entry 46). -/
def Video.frameStart (v : Video) : Video :=
  { v with bank := v.vc3.extractLsb' 20 12, addrHi := v.vc3.extractLsb' 4 16, addrLo := v.vc4.extractLsb' 4 16, lowerNext := false,
           line := v.vc2.extractLsb' 0 10, first := true, mask := v.vc4.extractLsb' 20 4, fifoA := [], fifoB := [], fifoHi := [],
           fifoLo := [], shadesHi := [], shadesLo := [], l3 := 0, l4 := 0, l5 := 0, l7 := 0 }

/-- A write of Video Control 1 (R1004): ENVID going to 1 starts the first frame; it ends a freeze when ENFREEZEFRAME is cleared. ENVID = 0
stops the logic, whose outputs are low then (R1107); a DF that was high goes low without DFINT, which is for the toggles of the DF logic
(R1016; DESIGN CHOICE, log entry 46). -/
def Video.writeControl (v : Video) (w : Word) : Video :=
  let start := bitOf w 0 && !v.en
  let v := { v with vc1 := w &&& 0x003FFFFF }
  if start && (!v.frozen || !v.freezes) then
    { v.frameStart with frozen := false, dfCnt := v.vc4.extractLsb' 24 8, baudCnt := v.baudVal, baud := true, pos := 0 }
  else if !v.en then
    { v with df := false, frame := false, load := false, cp := false, vdat := 0, done := false, doneCnt := 0, shifting := false }
  else v

/-- Writes of `$028` to `$05C` (R1020 to R1027). -/
def Video.write (v : Video) (off : Nat) (w : Word) : Except Refusal Video :=
  match off with
  | 0x028 => .ok (v.writeControl w)
  | 0x02C => .ok { v with vc2 := w &&& 0xFFDFF3FF }
  | 0x030 => .ok { v with vc3 := w &&& 0xFFFFFFF0 }
  | 0x034 => .ok { v with vc4 := w &&& 0xFFFFFFF0 }
  | 0x038 => .ok { v with vc5 := w }
  | 0x03C => .ok { v with vc6 := w }
  | 0x040 => .ok { v with vc7 := w &&& 0x0000FFFF }
  | 0x044 => .ok { v with vc8 := w &&& 0x00000FFF }
  | 0x048 => .ok { v with vc9 := w }
  | 0x04C => .ok { v with vc10 := w &&& 0x000FFFFF }
  | 0x050 => .ok { v with vc11 := w &&& 0x000FFFFF }
  | 0x054 => .ok { v with vc12 := w &&& 0x0FFFFFFF }
  | 0x058 => .ok { v with vc13 := w &&& 0x0FFFFFFF }
  | 0x05C => .ok { v with vc14 := w &&& 0x0FFFFFFF }
  | _ => .error .frOffset

/-- The field bits of the write-only registers (R1021 to R1027). -/
def videoWriteOnlyMask (off : Nat) : Option Word :=
  match off with
  | 0x02C => some 0xFFDFF3FF
  | 0x030 | 0x034 => some 0xFFFFFFF0
  | 0x038 | 0x03C | 0x048 => some 0xFFFFFFFF
  | 0x040 => some 0x0000FFFF
  | 0x044 => some 0x00000FFF
  | 0x04C | 0x050 => some 0x000FFFFF
  | 0x054 | 0x058 | 0x05C => some 0x0FFFFFFF
  | _ => none

/-- Transfers between the FIFOs (R1009). -/
def Video.moveFifos (v : Video) : Video :=
  let full := !v.fifoA.isEmpty && !v.fifoB.isEmpty && v.fifoHi.isEmpty
  let v :=
    if v.split then
      (if full && v.fifoLo.isEmpty then { v with fifoHi := v.fifoB, fifoLo := v.fifoA, fifoA := [], fifoB := [] } else v)
    else if full then { v with fifoHi := v.fifoB, fifoB := [] } else v
  if !v.fifoA.isEmpty && v.fifoB.isEmpty then { v with fifoB := v.fifoA, fifoA := [] } else v

/-- The video logic transfers data. -/
def Dev.videoRuns (d : Dev) : Bool := d.video.en && !d.video.frozen && enVidClk d.clk

/-- A burst is requested whenever FIFOA is empty (R1008). -/
def Dev.videoReq (d : Dev) : Bool := d.videoRuns && d.video.fifoA.isEmpty

/-- The burst address (R1008, D19). -/
def Video.burstAddr (v : Video) : Word := v.bank ++ (if v.split && v.lowerNext then v.addrLo else v.addrHi) ++ (0#4)

/-- A burst of four words has been read (R1008). -/
def Video.burst (v : Video) (ws : List Word) : Video :=
  let lower := v.split && v.lowerNext
  let hi := if lower then v.addrHi else v.addrHi + 1
  let lo := if lower then v.addrLo + 1 else v.addrLo
  let base : BitVec 16 := v.vc4.extractLsb' 4 16
  let wrap := hi = base && (!v.split || lower)
  { v with fifoA := ws, lowerNext := v.split && !v.lowerNext, addrHi := if wrap then v.vc3.extractLsb' 4 16 else hi,
           addrLo := if wrap then base else lo }.moveFifos

/-! ## Pixels (R1010 to R1013) -/

/-- The look-up tables (R1011): shade of a 2-bit gray pixel, of a colour pixel. -/
def Video.gray2 (v : Video) (p : BitVec 2) : BitVec 4 := v.vc7.extractLsb' (4 * p.toNat) 4
def Video.red (v : Video) (r : BitVec 3) : BitVec 4 := v.vc5.extractLsb' (4 * r.toNat) 4
def Video.green (v : Video) (g : BitVec 3) : BitVec 4 := v.vc6.extractLsb' (4 * g.toNat) 4
def Video.blue (v : Video) (b : BitVec 2) : BitVec 4 := v.vc7.extractLsb' (4 * b.toNat) 4

/-- The duty of a shade: on frames, of a period of frames (R1012). -/
def dutyOf (shade : BitVec 4) : Nat × Nat :=
  match shade.toNat with
  | 0 => (0, 1) | 1 => (1, 7) | 2 => (1, 5) | 3 => (2, 7) | 4 => (1, 3) | 5 => (2, 5) | 6 => (3, 7) | 7 => (2, 4)
  | 8 => (4, 7) | 9 => (3, 5) | 10 => (2, 3) | 11 => (5, 7) | 12 => (3, 4) | 13 => (4, 5) | 14 => (6, 7) | _ => (1, 1)

/-- The 4-bit field of a pattern register that a dithering line counter selects, line 0 first (R1013, R1027): the pattern has `lines`
fields and ends at bit `lo`. -/
def patternField (w : Word) (lo lines : Nat) (line : BitVec 3) : BitVec 4 := w.extractLsb' (lo + 4 * (lines - 1 - line.toNat)) 4

/-- The pattern field of a shade: the complementary pattern inverted for duties below one half (R1013). -/
def Video.pattern (v : Video) (shade : BitVec 4) : BitVec 4 :=
  let p23 := patternField v.vc8 0 3 v.l3
  let p34 := patternField v.vc9 16 4 v.l4
  let p24 := patternField v.vc9 0 4 v.l4
  let p45 := patternField v.vc10 0 5 v.l5
  let p35 := patternField v.vc11 0 5 v.l5
  let p67 := patternField v.vc12 0 7 v.l7
  let p57 := patternField v.vc13 0 7 v.l7
  let p47 := patternField v.vc14 0 7 v.l7
  match shade.toNat with
  | 0 => 0 | 1 => ~~~p67 | 2 => ~~~p45 | 3 => ~~~p57 | 4 => ~~~p23 | 5 => ~~~p35 | 6 => ~~~p47 | 7 => p24
  | 8 => p47 | 9 => p35 | 10 => p23 | 11 => p57 | 12 => p34 | 13 => p45 | 14 => p67 | _ => 0xF

/-- The bits of a pixel in memory (R1010). -/
def Video.depth (v : Video) : Nat :=
  match v.bitSel with
  | 0 => 1 | 1 => 2 | 2 => 4 | _ => 8

/-- The pixels of a word, the next first (R1010). -/
def Video.pixels (v : Video) (w : Word) : List Byte :=
  let n := v.depth
  let mask : Byte := BitVec.ofNat 8 (2 ^ n - 1)
  let up := (List.range (32 / n)).map fun k => (w >>> (k * n)).setWidth 8 &&& mask
  if Config.pixelFirstHigh then up.reverse else up

/-- The shades of a pixel (R1010, R1011): one, for a colour pixel three; a monochrome pixel bypasses table and dither, as a shade that is
always on or always off. -/
def Video.shadesOf (v : Video) (p : Byte) : List (BitVec 4) :=
  match v.bitSel with
  | 0 => [if p.getLsbD 0 then 15 else 0]
  | 1 => [v.gray2 (p.setWidth 2)]
  | 2 => [p.setWidth 4]
  | _ => let (r, g, b) := Config.colourFields p; [v.red r, v.green g, v.blue b]

/-- The shades of a word, the next first: a colour pixel's R, G, B follow one another without regard to nibbles (R1001). -/
def Video.wordShades (v : Video) (w : Word) : List (BitVec 4) := (v.pixels w).flatMap v.shadesOf

/-- The dithering frame counter of a shade: that of its period of frames (R1012, R1013). -/
def Video.frameCounter (v : Video) (shade : BitVec 4) : BitVec 3 :=
  match (dutyOf shade).2 with
  | 3 => v.f3 | 4 => v.f4 | 5 => v.f5 | _ => v.f7

/-- The shade is on in frame `f` of its period: of the sets of as many frames as its duty says, the one that `choice` numbers (R1012). -/
def dutyOn (shade : BitVec 4) (choice f : Nat) : Bool :=
  let sets := (List.range (dutyOf shade).2).sublistsLen (dutyOf shade).1
  (sets.getD (choice % sets.length) []).contains f

/-- Enable Select: the on/off bit of the shade at position `k` of four (R1012, R1013). -/
def Video.enable (v : Video) (shade : BitVec 4) (k : Nat) : Bool :=
  if shade = 0 then false else if shade = 15 then true
  else dutyOn shade (Config.ditherChoice shade (v.pattern shade) k) (v.frameCounter shade).toNat

/-- Four shades as four dithered bits, the first as bit 3 (R1001: on UD3). -/
def Video.nibble (v : Video) (shades : List (BitVec 4)) : BitVec 4 :=
  let bit (k : Nat) : BitVec 4 := if v.enable (shades.getD k 0) k then 1 else 0
  bit 0 <<< 3 ||| bit 1 <<< 2 ||| bit 2 <<< 1 ||| bit 3

/-! ## Shifting (R1001, R1002) -/

/-- Four shades of the upper, the lower stream, if it has them; a word leaves its FIFO when they run out (R1009). -/
def Video.take (v : Video) (lower : Bool) : Option (Video × BitVec 4) :=
  let have' (v : Video) : List (BitVec 4) := if lower then v.shadesLo else v.shadesHi
  let fetched : Video :=
    if 4 ≤ (have' v).length then v
    else if lower then
      { v with shadesLo := v.shadesLo ++ (v.fifoLo.take 1).flatMap v.wordShades, fifoLo := v.fifoLo.tail }.moveFifos
    else { v with shadesHi := v.shadesHi ++ (v.fifoHi.take 1).flatMap v.wordShades, fifoHi := v.fifoHi.tail }.moveFifos
  if (have' fetched).length < 4 then none
  else
    let n := fetched.nibble (have' fetched)
    some (if lower then { fetched with shadesLo := fetched.shadesLo.drop 4 } else { fetched with shadesHi := fetched.shadesHi.drop 4 }, n)

/-- A nibble goes out on VDAT, inverted with INVVID (R1004, R1020); without data the logic halts (R1002). -/
def Video.push (v : Video) (lower : Bool) : Option Video :=
  (v.take lower).map fun p => { p.1 with vdat := if v.invVid then ~~~p.2 else p.2 }

/-- A counter modulo `m`. -/
def modNext (c : BitVec 3) (m : Nat) : BitVec 3 := if c.toNat + 1 < m then c + 1 else 0

/-- A line has been shifted (R1000, R1002, R1013, R1016): LOAD, the counters, the interrupts. The DF Counter counts every LOAD pulse; DFMODE
says whether its rollover or the frame toggles DF. At the end of a frame ENFREEZEFRAME freezes the logic (R1004). -/
def Dev.videoLine (d : Dev) : Dev :=
  let v := d.video
  let v := { v with l3 := modNext v.l3 3, l4 := modNext v.l4 4, l5 := modNext v.l5 5, l7 := modNext v.l7 7, first := false, load := true,
                    shifting := false }
  let last := v.line = 0
  let mode := bitOf v.vc1 3
  let roll := v.dfCnt = 0
  let toggle := if mode then roll else last
  let v := { v with df := xor v.df toggle
                    dfCnt := if roll then v.vc4.extractLsb' 24 8 else v.dfCnt - 1 }
  let v := if last then
    { v.frameStart with f3 := modNext v.f3 3, f4 := modNext v.f4 4, f5 := modNext v.f5 5, f7 := modNext v.f7 7, frozen := v.freezes }
    else { v with line := v.line - 1 }
  { d with video := v, intr := (d.intr.setIf last 1 31).setIf toggle 1 30 }

/-- The time from the end of shifting a line to VIDDONE in CLK periods (R1003). -/
def Video.doneDelay (v : Video) : BitVec 11 :=
  if v.vidDoneVal = 0 then Config.vidDoneZero else BitVec.ofNat 11 (6 + 16 * (v.vidDoneVal.toNat - 1))

/-- The last output of a line is over: VIDDONE is due, but for the lines masked after FRAME (R1003). -/
def Video.lineShifted (v : Video) : Video :=
  if v.mask != 0 then { v with shifting := false, mask := v.mask - 1 } else { v with shifting := false, doneCnt := v.doneDelay }

/-- The baud clock of a line in which FRAME changes and shifting starts: the first, which LOAD starts too, with LOADDLY the second, so that
with either a line of VIDRATE = HORZVAL + 1 is shifted whole before the next LOAD (R1002; DEDUCED, log entry 46). -/
def Video.startPos (v : Video) : BitVec 11 := if v.loadDly then 2 else 1

/-- Data for two outputs a CP period (R1001): the upper nibble goes out before the rising edge of CP, the lower one with it. -/
def Video.multiplexed (v : Video) : Bool := v.split || v.disp8

/-- The falling edge of the baud clock, on which a baud clock of the line begins; `none` when there is no data to shift. -/
def Video.fall (v : Video) : Option Video :=
  let v := { v with baud := false, cp := false, pos := v.pos + 1 }
  let v := if v.shifting && v.horz = 0 then v.lineShifted else if v.shifting then { v with horz := v.horz - 1 } else v
  let v := if v.pos = v.startPos then
    { v with frame := v.first, shifting := true, horz := v.horzVal, done := false, doneCnt := 0 } else v
  if v.shifting && v.multiplexed then v.push false else some v

/-- The rising edge of the baud clock: it ends the LOAD pulse (DEDUCED, log entry 46), and data is pushed with the rising edge of CP (R1000). With
DISPSPLIT and DISP8 both set, which R1001 does not list, DISPSPLIT counts: the lower nibble comes from the lower stream (DESIGN CHOICE, log entry
46). -/
def Video.rise (v : Video) : Option Video :=
  let v := { v with baud := true, cp := v.shifting, load := false }
  if v.shifting then v.push v.split else some v

/-- The next edge of the baud clock, or HALT: without data to shift the edge waits (R1002). -/
def Dev.videoEdge (d : Dev) : Dev :=
  match (if d.video.baud then d.video.fall else d.video.rise) with
  | some v => { d with video := { v with baudCnt := v.baudVal } }
  | none => d

/-- The line is over (R1002): the LOAD pulse begins, and with it the first baud clock of the next line, unless the frame was the last before a
freeze (R1004). -/
def Dev.videoLineEnds (d : Dev) : Dev :=
  let v := if d.video.shifting then d.video.lineShifted else d.video
  let d := Dev.videoLine { d with video := { v with cp := false, pos := 0 } }
  if d.video.frozen then { d with video := { d.video with baudCnt := d.video.baudVal } } else d.videoEdge

/-- One VIDCLK (R1002): the baud clock has a half period of BAUDVAL + 1; the line ends after VIDRATE + 1 of its clocks. A frozen baud clock stands
still once the LOAD pulse of the last line is over (R1004). -/
def Dev.videoClock (d : Dev) : Dev :=
  let v := d.video
  if !(v.en && enVidClk d.clk) || (v.frozen && !v.load) then d
  else if v.baudCnt != 0 then { d with video := { v with baudCnt := v.baudCnt - 1 } }
  else if v.frozen then { d with video := { v with load := false } }
  else if v.baud && v.pos.toNat = v.vidRate.toNat + 1 then d.videoLineEnds
  else d.videoEdge

/-- One CLK of the VIDDONE delay (R1003). -/
def Dev.vidDoneClock (d : Dev) : Dev :=
  let v := d.video
  if v.en && enVidClk d.clk && v.doneCnt != 0 then { d with video := { v with doneCnt := v.doneCnt - 1, done := v.doneCnt = 1 } } else d

/-- CP divisor of VIDCLK, lines and frames, DF in lines (R1002). -/
def Video.cpDivisor (v : Video) : Nat := v.baudVal.toNat * 2 + 2
def Video.lineDivisor (v : Video) : Nat := v.cpDivisor * (v.vidRate.toNat + 1)
def Video.frameDivisor (v : Video) : Nat := v.lineDivisor * ((v.vc2.extractLsb' 0 10).toNat + 1)
def Video.dfDivisor (v : Video) : Nat := v.lineDivisor * ((v.vc4.extractLsb' 24 8).toNat + 1)

end Sys2Proof.Machine
end

