-- ==== Sys2Proof/Machine/Io.lean ====
section
/-!
DEFINITION. The I/O Module (spec/64_io_ir.md R682 to R696) and the pins of the chip (spec/71_pins_electrical.md R1101 to R1108): which
signal stands on which pin, the levels of the general purpose and multi-function pins, their edge interrupts, the registers `$180` to
`$198`.
-/

namespace Sys2Proof.Machine

/-- POWERDOWN of the pins (R684, R807). -/
def Power.pinsDown (p : Power) : Bool := !(bitOf p.ctl 0 && p.vcc3)

/-- What a pin carries (Tables 9.2.2, 9.2.3, 2.3.4 to 2.3.6); `signal` is the signal of the transaction on the memory bus. -/
inductive PinState where
  | hiZ
  | driven (b : Bool)
  | pullDown
  | signal
  | oscillator (on : Bool)
deriving DecidableEq, Repr

/-- The state of general purpose pin `i` (R683, R684). -/
def ioPinState (io : Io) (down : Bool) (i : Nat) : PinState :=
  if down && bitOf io.ioPd i then .pullDown else if bitOf io.ctl (16 + i) then .driven (bitOf io.ctl (8 + i)) else .hiZ

/-! ## The standard functions (R685 to R687, R1104) -/

/-- The multi-function pins that a power down pulls down: MFIOPD; while RESET is set also MCS0* to MCS3* (R1107). -/
def Dev.mioPd (d : Dev) : Word := if d.power.resetFF then d.io.mfioPd ||| 0x000F0000 else d.io.mfioPd

/-- The level that reaches a module whose standard function is the input on MIO[j]: that of the pin, whatever MFIOSEL is (R685). -/
def Dev.pinIn (d : Dev) (j : Nat) : Bool :=
  if d.power.pinsDown && bitOf d.mioPd j then false
  else if bitOf d.io.mfioSel j && bitOf d.io.mfioDir j then bitOf d.io.mfioOut j else bitOf d.io.mioPin j

/-- DREQ* on MIO[27] asks for the bus (R241); a pin that is powered down asks for nothing (DESIGN CHOICE, log entry 18). -/
def Dev.busRequest (d : Dev) : Bool := !d.pinIn 27 && !d.power.pinsDown

/-- DGRNT* follows DREQ*: the bus is granted to the external master, once the transaction on it is complete, unless the memory interface is
powered down (R241). Without ENSYSCLK it stays as it is (R489). -/
def Dev.grantBus (d : Dev) : Dev :=
  { d with granted := if d.power.ensys then d.busRequest && !bitOf d.biu.mc4 16 && d.biu.held.isNone else d.granted }

/-- CARD1WAIT* and CARD2WAIT* on MIO[4] and MIO[3], low (R216). -/
def Dev.cardWaits (d : Dev) (second : Bool) : Bool := !d.pinIn (if second then 3 else 4)

/-- The standard-function direction signals (R687): CHIENOUT drives CHIDOUT, which is always tri-stated in sleep mode (R571). Sleep mode is taken as
power down or ENSYSCLK off, and R571 goes before the table of R687, which lists CHIDOUT as an output without power down logic (DESIGN CHOICE, log
entry 18). MFIO[1:0] have no standard function and are inputs with MFIOSEL = 0, which the table leaves blank (DESIGN CHOICE, log entry 18). -/
def mioStdDir (d : Dev) (down : Bool) : Word :=
  boolAt d.chi.fsMaster 31 ||| boolAt (bitOf d.clk 20) 30 ||| boolAt (d.chi.txDriven && d.power.ensys && !down) 29 |||
  boolAt (bitOf d.clk 13) 12 ||| 0x0700CE04 ||| (if down then 0 else 0x007F01E0)

/-- The standard-function output signals (R685, R686): CHIFS, CHICLK, CHIDOUT, DGRNT*, BC32K, TXD, SPICLK, SPIOUT, SIBMCLK; the selects and strobes
of devices and cards are high between transactions. During power down the signals of the "0" rows are low (R687). -/
def mioStdOut (d : Dev) (down : Bool) : Word :=
  let w := boolAt d.chi.fsLevel 31 ||| boolAt d.chi.clk 30 ||| boolAt d.chi.dout 29 ||| boolAt (!d.granted) 26 ||| boolAt d.timer.c32k 25 |||
    boolAt d.uartA.txd 24 ||| boolAt d.spi.clk 15 ||| boolAt d.spi.out 14 ||| boolAt d.sib.mclk 12 ||| 0x007F0FE4
  if down then w &&& ~~~0x04000E04#32 else w

/-- The state of multi-function pin `j` (R685, R687). -/
def mioPinState (d : Dev) (down : Bool) (j : Nat) : PinState :=
  if down && bitOf d.mioPd j then .pullDown
  else if bitOf d.io.mfioSel j then
    (if bitOf d.io.mfioDir j then .driven (bitOf d.io.mfioOut j) else .hiZ)
  else if bitOf (mioStdDir d down) j then .driven (bitOf (mioStdOut d down) j) else .hiZ

/-- The pins that the chip drives in multi-function or standard mode, and the levels it drives (R685). -/
def Dev.mioDriven (d : Dev) : Word :=
  (d.io.mfioSel &&& d.io.mfioDir) ||| (~~~d.io.mfioSel &&& mioStdDir d d.power.pinsDown)
def Dev.mioData (d : Dev) : Word :=
  (d.io.mfioSel &&& d.io.mfioOut) ||| (~~~d.io.mfioSel &&& mioStdOut d d.power.pinsDown)

/-- The levels of MIO[31:0] (R685, R687); a pin that is pulled down is low, whatever the outside drives, so that power down records the falling
edge of one that was high (DESIGN CHOICE, log entry 18). -/
def Dev.mioLevels (d : Dev) : Word :=
  let v := (d.mioDriven &&& d.mioData) ||| (~~~d.mioDriven &&& d.io.mioPin)
  if d.power.pinsDown then v &&& ~~~d.mioPd else v

/-- The levels of IO[6:0] at the pins: driven, pulled down, or what the outside drives (R682 to R684). One that is pulled down is low, whatever
the outside drives, so that power down records the falling edge of one that was high (DESIGN CHOICE, log entry 18). -/
def Dev.ioPins (d : Dev) : BitVec 7 :=
  let dir := d.io.ctl.extractLsb' 16 7
  let v := (dir &&& d.io.ctl.extractLsb' 8 7) ||| (~~~dir &&& d.io.ioPin)
  if d.power.pinsDown then v &&& ~~~(d.io.ioPd.extractLsb' 0 7) else v

/-- The levels that IODIN and the edge flip-flops see: debounced or direct (R682). -/
def Dev.ioLevels (d : Dev) : BitVec 7 :=
  let deb := d.io.ctl.extractLsb' 24 7
  (deb &&& d.io.ioDeb) ||| (~~~deb &&& d.ioPins)

/-! ## The other pins (R1101, R1105 to R1108) -/

/-- The levels of the inputs that power down pulls down (R1107, R1108): low, whatever the outside drives, so that power down records the falling
edge of a CARDET or SIBIRQ that was high and power up the rising one (R640, R706; DESIGN CHOICE, log entry 18). -/
def Dev.carDetIn (d : Dev) : Bool := d.ir.carDetPin && !d.power.pinsDown
def Dev.irInLevel (d : Dev) : Bool := d.ir.irIn && !d.power.pinsDown
def Dev.sibDin (d : Dev) : Bool := d.sib.din && !d.power.pinsDown
def Dev.sibIrqIn (d : Dev) : Bool := d.sib.irqPin && !d.power.pinsDown

/-- IROUT: the Consumer IR output when that is enabled, else the transmit signal of UARTB; low in power down (R701, R1108).
DTINVERT inverts the Consumer IR output only (R710; DESIGN CHOICE, log entry 42). -/
def Dev.irOut (d : Dev) : Bool := !d.power.pinsDown && (if bitOf d.ir.ctl1 0 then d.ir.out else d.uartB.txd)

/-- RXPWR: low in power down (R707, R1108). -/
def Dev.rxPwr (d : Dev) : Bool := !d.power.pinsDown && d.ir.rxPwr

/-- The receive pin of a UART: RXD on MIO[23], IRIN (R930). -/
def Dev.rxPin (d : Dev) (b : Bool) : Bool := if b then d.irInLevel else d.pinIn 23

/-- The pins that are no ports. `memory` stands for D[31:0], A[12:0], WE*, CAS3* to CAS0*, RAS1*, RAS0* and DCS0*, `dqm` for DQMH and DQML,
`strap` for TESTAIU, TESTCPU, TESTIN and ENDIAN. -/
inductive ChipPin where
  | memory
  | dqm
  | dcke
  | dclkIn
  | sysclk
  | c32k
  | pwrint
  | pwrok
  | onbutn
  | cpures
  | pon
  | mbusint
  | strap
  | ale
  | rd
  | cs0
  | dclkOut
  | frame
  | df
  | load
  | cp
  | vdat (i : Fin 4)
  | dispon
  | viddone
  | pwrcs
  | mbusclk
  | mbusdata
  | sibsync
  | sibdout
  | sibsclk
  | rxpwr
  | irout
  | cardet
  | irin
  | sibdin
  | sibirq
  | vcc3
deriving DecidableEq, Repr

/-- An input that power down pulls down. -/
def pulledInput (down : Bool) : PinState := if down then .pullDown else .hiZ

/-- A pin of the memory bus: tri-stated while the bus is granted (R241, R1105), else at the level that holds it, if one does, else the
signal of the transaction. -/
def Dev.busPin (d : Dev) (level : Option Bool) : PinState := if d.granted then .hiZ else (level.map PinState.driven).getD .signal

/-- A level that holds while a condition does. -/
def heldAt (b : Bool) (c : Bool) : Option Bool := if c then some b else none

/-- The state of a pin (R241, R1000, R1105, R1107, R1108). While the bus is granted DCLKOUT is tri-stated only with ENDCLKOUTTRI, as R241
says. Between transactions ALE is low, and RD* and CS0* are high (R1107, log entry 18); the data masks of the SDRAM stand at their
level after a wake-up until it is accessed (R258), and DCKE is low seven CLK periods after the last access with ENSDRAMPD (R237). With
DCLKDISABLE = 1 DCLKOUT is low; R261 says no more than that the output is disabled (DESIGN CHOICE, log entry 18). A bus that
is still granted in power down stays tri-stated, RD* with it, against the LOW of R1107, while CS0* is pulled down (DESIGN CHOICE, log
entry 18). -/
def Dev.pinState (d : Dev) (p : ChipPin) : PinState :=
  let down := d.power.pinsDown
  let asleep := bitOf d.biu.mc4 16
  let video := d.video.en
  match p with
  | .memory => d.busPin (heldAt false asleep)
  | .dqm => d.busPin ((heldAt false asleep).or (heldAt (!bitOf d.biu.mc0 29) d.biu.woken))
  | .dcke => d.busPin (heldAt false (asleep || (bitOf d.biu.mc0 28 && d.biu.sdIdle = 7)))
  | .ale => d.busPin (heldAt false d.biu.held.isNone)
  | .rd => d.busPin ((heldAt false down).or (heldAt true d.biu.held.isNone))
  | .cs0 => if down then .pullDown else d.busPin (heldAt true d.biu.held.isNone)
  | .sysclk => .oscillator (!down)
  | .c32k => .oscillator true
  | .dclkIn | .pwrint | .pwrok | .onbutn | .cpures | .pon | .mbusint | .strap => .hiZ
  | .dclkOut => if d.granted && bitOf d.biu.mc0 30 then .hiZ else if asleep || bitOf d.biu.mc3 0 then .driven false else .signal
  | .frame => .driven (video && d.video.frame)
  | .df => .driven (video && d.video.df)
  | .load => .driven (video && d.video.load)
  | .cp => .driven (video && d.video.cp)
  | .vdat i => .driven (video && d.video.vdat.getLsbD i.val)
  | .dispon => .driven (video && bitOf d.video.vc1 1)
  | .viddone => .driven (video && d.video.done && !down)
  | .pwrcs => .driven (bitOf d.power.ctl 1)
  | .mbusclk => if d.mbus.on && d.mbus.slave then .hiZ else .driven d.mbus.clkLine
  | .mbusdata => if d.mbus.on && d.mbus.slave then .hiZ else .driven d.mbus.dataLine
  | .sibsync => .driven (!down && d.sib.sync)
  | .sibdout => .driven (!down && d.sib.dout)
  | .sibsclk => .driven (!down && d.sib.sclk)
  | .rxpwr => .driven d.rxPwr
  | .irout => .driven d.irOut
  | .cardet | .irin | .sibdin | .sibirq | .vcc3 => pulledInput down

/-! ## Edges (R571, R688, R746) -/

/-- The edges of CHICLK and SIBMCLK at the pins clock the modules to which they are inputs (R534, R571). -/
def Dev.pinClocks (d : Dev) (old new free : Word) : Dev :=
  let chi := bitOf old 30 != bitOf new 30 && !bitOf d.clk 20
  let d := if chi then d.chiClock (bitOf new 30) (d.pinIn 31) (d.pinIn 28) free else d
  if !bitOf old 12 && bitOf new 12 && !bitOf d.clk 13 && d.power.ensys then d.sibClock d.sibDin else d

/-- The edges of the ports since the flip-flops last looked set their interrupts (R640, R643, R644, R645, R688). -/
def Dev.edges (d : Dev) (free : Word) : Dev :=
  let io := d.ioLevels
  let old := d.io.mioSeen
  let mio := d.mioLevels
  let intr := (d.intr.set 3 (mio &&& ~~~old)).set 4 (~~~mio &&& old)
  let intr := intr.set 5 (placed (io &&& ~~~d.io.ioSeen) 7 ||| placed (~~~io &&& d.io.ioSeen) 0)
  Dev.pinClocks { d with intr := intr, io := { d.io with ioSeen := io, mioSeen := mio } } old mio free

/-- The edges of the other inputs: CARDET (R706), SIBIRQ (R858), the Magicbus lines (R746). -/
def Dev.inputs (d : Dev) : Dev := ((d.carDetEdges d.carDetIn).setSibIrq d.sibIrqIn).mbusLines

/-- The selects and strobes of a transaction fall and rise again on the pins that carry them (R685, R688): both edges are recorded when the
transaction starts (log entry 18). -/
def Dev.strobe (d : Dev) (mask : Word) : Dev :=
  let m := mask &&& ~~~d.io.mfioSel
  if d.power.pinsDown then d else { d with intr := (d.intr.set 3 m).set 4 m }

/-! ## The registers -/

/-- Reads of `$180` to `$198` (R689 to R695). -/
def Dev.ioRead (d : Dev) (off : Nat) : Option Word :=
  match off with
  | 0x180 => some (d.io.ctl ||| placed d.ioLevels 0)
  | 0x184 => some d.io.mfioOut
  | 0x188 => some d.io.mfioDir
  | 0x18C => some d.mioLevels
  | 0x190 => some d.io.mfioSel
  | 0x194 => some d.io.ioPd
  | 0x198 => some d.io.mfioPd
  | _ => none

/-- Writes of `$180` to `$198`; MFIO Data Input stores nothing (R692, D14). -/
def Io.write (io : Io) (off : Nat) (v : Word) : Except Refusal Io :=
  match off with
  | 0x180 => .ok { io with ctl := v &&& 0x7F7F7F00 }
  | 0x184 => .ok { io with mfioOut := v }
  | 0x188 => .ok { io with mfioDir := v }
  | 0x18C => .ok io
  | 0x190 => .ok { io with mfioSel := v }
  | 0x194 => .ok { io with ioPd := v &&& 0x7F }
  | 0x198 => .ok { io with mfioPd := v }
  | _ => .error .frOffset

/-- The outside world drives a general purpose or a multi-function pin. -/
def Io.setIo (io : Io) (i : Nat) (level : Bool) : Io :=
  { io with ioPin := (withBit (io.ioPin.setWidth 32) i level).setWidth 7 }
def Io.setMio (io : Io) (j : Nat) (level : Bool) : Io := { io with mioPin := withBit io.mioPin j level }

/-- The debouncer of pin `i` passes its input on (R682), while its 8 ms reference runs (R926). -/
def Dev.debounceIo (d : Dev) (i : Nat) : Dev :=
  if d.timer.refRuns then
    { d with io := { d.io with ioDeb := (withBit (d.io.ioDeb.setWidth 32) i (d.ioPins.getLsbD i)).setWidth 7 } }
  else d

end Sys2Proof.Machine
end

