-- ==== Sys2Proof/Machine/Power.lean ====
section
/-!
DEFINITION. The Power Module (spec/66_power.md R790 to R807): reset, power up and down, Standby, Forced Shutdown, the Stop Timer, and
the Power Control Register.
-/

namespace Sys2Proof.Machine

/-- The bits of Power Control that software writes (R805). -/
def powerMask : Word := 0x1E00FFBF

/-- Set or clear PWRCS and VCCON together. -/
def Power.supply (p : Power) (on : Bool) : Power := { p with ctl := withBit (withBit p.ctl 1 on) 0 on }

/-- VCCON: without it ENSYSCLK is negated (R797, R805). -/
def Power.isOn (p : Power) : Bool := bitOf p.ctl 0

/-- The system is off, or on its way there: PWRCS or VCCON is cleared, and a power up sets both (R792, R798; log entry 45). -/
def Power.isOff (p : Power) : Bool := !(bitOf p.ctl 0 && bitOf p.ctl 1)

/-- The core's clock runs (R489, R796, R800). -/
def Power.coreRuns (p : Power) : Bool := p.ensys && !p.stopped && !p.resetFF

/-- The core goes on: its clock runs, and no DMA transaction is in progress (R30, R524). -/
def Dev.coreRuns (d : Dev) : Bool := d.power.coreRuns && d.dma.isNone

/-- Power up while the system is off: PWRCS, VCCON and FORCESHUTDWN are set (R798, R803); at the first power up the RESET flip-flop is
cleared and FORCESHUTDWN stays (R795). -/
def Power.powerUp (p : Power) : Power :=
  if p.resetFF then { p.supply true with resetFF := false }
  else { p with ctl := withBit (withBit (withBit p.ctl 1 true) 0 true) 9 true }

/-- Power Control as read (R805): bits 31:29 are the levels of the pins. -/
def Power.read (p : Power) : Word := p.ctl ||| boolAt p.onbutnPin 31 ||| boolAt p.pwrint 30 ||| boolAt p.pwrok 29

/-- The count of the Stop Timer equals its value (R802). -/
def Power.stopMatch (p : Power) : Bool := bitOf p.ctl 11 && p.stp = p.ctl.extractLsb' 12 4

/-- What Power Control holds after a write of `v` (R805): PWRCS is not asserted while PWROK is low, nor VCCON, which is set together with it
(R792, R805); while an enabled interrupt is pending PWRCS and VCCON do not go low (R797). -/
def Power.written (p : Power) (v : Word) (anyEnabled : Bool) : Word :=
  let v := v &&& powerMask
  let v := if p.pwrok || bitOf p.ctl 1 then v else v &&& (p.ctl ||| ~~~0x3#32)
  if anyEnabled then v ||| (p.ctl &&& 0x3) else v

/-- A write of Power Control: the Stop Timer is held at zero while it is disabled (R802). -/
def Power.write (p : Power) (v : Word) (anyEnabled : Bool) : Power :=
  let w := p.written v anyEnabled
  { p with ctl := w, stp := if bitOf w 11 then p.stp else 0 }

/-- What an enabled pending interrupt does: it clears STOPCPU and restarts the core (R801), and powers the system up (R798). -/
def Dev.settlePower (d : Dev) : Dev :=
  if d.intr.anyEnabled then
    let p := { d.power with ctl := withBit d.power.ctl 4 false, stopped := false }
    { d with power := if p.isOff && p.pwrok && !p.resetFF then p.powerUp else p }
  else d

/-- The core's clock stops: STOPCPU (R800), or VCCON cleared negates ENSYSCLK (R797). Nothing says whether it may stop in the middle of an
instruction that waits for the bus (N66-1): it may, and then its transaction keeps the bus until the core goes on (DESIGN CHOICE, log
entry 45). -/
def Power.coreStops (p : Power) : Power :=
  { p with stopped := p.stopped || bitOf p.ctl 4, ensys := p.ensys && p.isOn }

/-- ENSYSCLK at the end of its delay (R796), whose reference must run (R921, R926) unless BPDBVCC3 = 1 spares the delay. -/
def Dev.clockStarts (d : Dev) : Dev :=
  let p := d.power
  let ends := (bitOf p.ctl 5 || d.timer.refRuns) && p.vcc3 && p.isOn && !p.resetFF
  { d with power := { p with ensys := p.ensys || ends } }

/-- The PWROK pin (R793, R803, R804). A Forced Shutdown negates ENSYSCLK at once, without the instructions that R797 lets follow a write of the
software (DESIGN CHOICE, log entry 45). -/
def Dev.setPwrok (d : Dev) (level : Bool) : Dev :=
  let fall := d.power.pwrok && !level
  let rise := !d.power.pwrok && level
  let intr := (d.intr.setIf rise 5 25).setIf fall 5 24
  let intr := if fall && intr.pwrokNmi then { intr with nmi := true } else intr
  let p := { d.power with pwrok := level }
  let forced := fall && bitOf p.ctl 10 && bitOf p.ctl 9
  { d with intr := intr, power := if forced then { p with ctl := withBit (p.supply false).ctl 8 true, ensys := false } else p }

/-- The level of ONBUTN that the chip sees changes (R795, R798, R804). While RESET is set no latch is (R637), the press that clears RESET
included (DESIGN CHOICE, log entry 45). A press with PWROK = 0 leaves RESET set: R794 names the first press, R795 clears it in its branch for
PWROK = 1 (DESIGN CHOICE, log entry 45). -/
def Dev.onbutnLevel (d : Dev) (level : Bool) : Dev :=
  let rise := !d.power.onbutn && level
  let fall := d.power.onbutn && !level
  let live := !d.power.resetFF
  let p := { d.power with onbutn := level }
  { d with
    intr := (d.intr.setIf (rise && live) 5 23).setIf (fall && live) 5 22
    power := if rise && p.pwrok && (p.resetFF || p.isOff) then p.powerUp else p }

/-- The ONBUTN pin: it acts at once, or after the debouncer when DBNCONBUTN = 1. -/
def Dev.setOnbutn (d : Dev) (level : Bool) : Dev :=
  let d := { d with power := { d.power with onbutnPin := level } }
  if bitOf d.power.ctl 3 then d else d.onbutnLevel level

/-- The debouncer passes ONBUTN on, while its 8 ms reference runs (R926). -/
def Dev.debounceOnbutn (d : Dev) : Dev := if d.timer.refRuns then d.onbutnLevel d.power.onbutnPin else d

/-- A write of Power Control and what follows at once: without DBNCONBUTN the chip sees the pin (R805); STPTIMERINT when the write makes
the count equal the value (R802). -/
def Dev.powerWrite (d : Dev) (v : Word) : Dev :=
  let p := d.power.write v d.intr.anyEnabled
  let d' := { d with power := p, intr := d.intr.setIf (p.stopMatch && !d.power.stopMatch) 5 28 }
  if bitOf p.ctl 3 then d' else d'.onbutnLevel p.onbutnPin

/-- The PWRINT pin (R804). -/
def Dev.setPwrint (d : Dev) (level : Bool) : Dev :=
  { d with
    intr := (d.intr.setIf (!d.power.pwrint && level) 5 27).setIf (d.power.pwrint && !level) 5 26
    power := { d.power with pwrint := level } }

/-- The VCC3 pin: with BPDBVCC3 = 1 ENSYSCLK follows its assertion at once (R796); without VCC3 there is no clock. Where VCC3 is high already when
VCCON is set, ENSYSCLK waits for its event all the same, since R796 speaks of the assertion of VCC3 only (DESIGN CHOICE, log entry 45). -/
def Power.setVcc3 (p : Power) (level : Bool) : Power :=
  { p with vcc3 := level
           ensys := if level then p.ensys || (bitOf p.ctl 5 && p.isOn && !p.resetFF) else false }

/-- One 8 ms clock of the Stop Timer (R802); after the match it counts on and wraps (DESIGN CHOICE, log entry 45). -/
def Dev.stopTimer (d : Dev) : Dev :=
  if bitOf d.power.ctl 11 then
    let n := d.power.stp + 1
    { d with power := { d.power with stp := n }, intr := d.intr.setIf (n = d.power.ctl.extractLsb' 12 4) 5 28 }
  else { d with power := { d.power with stp := 0 } }

/-- PON*: the RESET flip-flop is set and the supplies are off (R794, R1060). -/
def Power.ponReset (p : Power) : Power :=
  { Power.reset with ctl := 0x4, onbutn := p.onbutnPin, onbutnPin := p.onbutnPin, pwrint := p.pwrint, pwrok := p.pwrok, vcc3 := false,
                     resetFF := true, ensys := false }

end Sys2Proof.Machine
end

