-- ==== Sys2Proof/Machine/Regs.lean ====
section
/-!
DEFINITION. The Internal Function Registers as the SIU decodes them (spec/61_siu_clock.md R522, R523): a read and a write by offset, and
what the modules do of themselves after a change. A write-only field reads an open value, a reserved bit reads 0, a write to a
read-only register changes nothing (D13, D14, log entry 20).
-/

namespace Sys2Proof.Machine

/-! ## The Memory Configuration registers (R258 to R266) -/

/-- ENWATCH, CLRWRBUSERRINT, MEMPOWERDOWN, DISSNOOP (R262). -/
def Biu.enWatch (b : Biu) : Bool := bitOf b.mc4 24
def Biu.clrWrBusErr (b : Biu) : Bool := bitOf b.mc4 27
def Biu.powerDown (b : Biu) : Bool := bitOf b.mc4 16
def Biu.disSnoop (b : Biu) : Bool := bitOf b.mc4 28

/-- Reads of `$000` to `$020`. -/
def Biu.read (b : Biu) (off : Nat) (free : Word) : Option Word :=
  match off with
  | 0x000 => some b.mc0
  | 0x004 => some b.mc1
  | 0x008 => some b.mc2
  | 0x00C => some b.mc3
  | 0x010 => some b.mc4
  | 0x014 | 0x018 => some (free &&& 0xFFFFFE0F)
  | 0x01C | 0x020 => some (free &&& 0xFFFFFE00)
  | _ => none

/-- A write of Memory Configuration 4: CLRWRBUSERRINT clears the latch (R242, D25); a refresh counter starts at its value when its
refresh is enabled (DESIGN CHOICE, log entry 26: R240 does not say when); MEMPOWERDOWN cleared ends the power down, after which the data masks of the SDRAM wait for its first access
(R258). -/
def Biu.writeMc4 (b : Biu) (v : Word) : Biu :=
  let v := v &&& 0xFFF1FF3F
  { b with mc4 := v
           wrBusErr := b.wrBusErr && !bitOf v 27
           woken := b.woken || (b.powerDown && !bitOf v 16)
           rfsh1 := if bitOf v 15 && !bitOf b.mc4 15 then fieldOf v 8 6 else b.rfsh1
           rfsh0 := if bitOf v 14 && !bitOf b.mc4 14 then fieldOf v 0 6 else b.rfsh0 }

/-- Writes of `$000` to `$020`. -/
def Biu.write (b : Biu) (off : Nat) (v : Word) : Except Refusal Biu :=
  match off with
  | 0x000 => .ok { b with mc0 := v &&& 0x7FFFFFFF }
  | 0x004 => .ok { b with mc1 := v }
  | 0x008 => .ok { b with mc2 := v }
  | 0x00C => .ok { b with mc3 := v }
  | 0x010 => .ok (b.writeMc4 v)
  | 0x014 => .ok { b with mc5 := v &&& 0xFFFFFE0F }
  | 0x018 => .ok { b with mc6 := v &&& 0xFFFFFE0F }
  | 0x01C => .ok { b with mc7 := v &&& 0xFFFFFE00 }
  | 0x020 => .ok { b with mc8 := v &&& 0xFFFFFE00 }
  | _ => .error .frOffset

/-- One edge of the 32 kHz clock makes a refresh cycle in a bank (R240): with the value 0 each edge does, else one when the counter is 0, which
the rising edges count (DESIGN CHOICE, log entry 26: R240 gives the rate and not the edge). -/
def refreshNow (en rising : Bool) (val cnt : BitVec 6) : Bool := en && (val = 0 || (rising && cnt = 0))

/-- The refresh counter after that edge: it counts down, from the value again after a cycle (R240), with rising edges (DESIGN CHOICE, log entry
26). -/
def refreshCount (en rising : Bool) (val cnt : BitVec 6) : BitVec 6 :=
  if !en || !rising || val = 0 then cnt else if cnt = 0 then val else cnt - 1

/-- The refresh cycles that count as the start-up of the memory, up to eight. -/
def refreshDone (now : Bool) (done : BitVec 4) : BitVec 4 := if now && done.toNat < 8 then done + 1 else done

/-- The bank is set to SDRAM (R258). -/
def Biu.sdramBank (b : Biu) (second : Bool) : Bool := bitOf b.mc0 (if second then 19 else 17)

/-- One edge of the 32 kHz clock for both banks (R240): for an SDRAM the eight cycles come after its Mode Register Set (R235), and a
refresh takes it out of power down (R237). The cycles go on, and count toward the eight, while MEMPOWERDOWN = 1 has the memory in self
refresh and while ENSYSCLK is off (DESIGN CHOICE, log entry 26). -/
def Biu.refresh (b : Biu) (rising : Bool) : Biu :=
  let now0 := refreshNow (bitOf b.mc4 14) rising (fieldOf b.mc4 0 6) b.rfsh0
  let now1 := refreshNow (bitOf b.mc4 15) rising (fieldOf b.mc4 8 6) b.rfsh1
  { b with rfsh0 := refreshCount (bitOf b.mc4 14) rising (fieldOf b.mc4 0 6) b.rfsh0
           rfsh1 := refreshCount (bitOf b.mc4 15) rising (fieldOf b.mc4 8 6) b.rfsh1
           refreshes0 := refreshDone (now0 && (!b.sdramBank false || b.sdMode0.isSome)) b.refreshes0
           refreshes1 := refreshDone (now1 && (!b.sdramBank true || b.sdMode1.isSome)) b.refreshes1
           sdIdle := if (now0 && b.sdramBank false) || (now1 && b.sdramBank true) then 0 else b.sdIdle }

/-! ## What follows from the state of the modules -/

/-- The transfers that have become due in the modules; without ENSYSCLK they wait (R489). -/
def Dev.transfers (d : Dev) : Dev := if d.power.ensys then ((d.mbusSettle.spiSettle).uartSettle false).uartSettle true else d

/-- The edges of all pins, DGRNT* among them; twice, since a clock pin moves the signals of its module. -/
def Dev.pinEdges (d : Dev) (free : Word) : Dev := ((d.grantBus.inputs).edges free).edges free

/-- RESET holds the interrupt latches clear (R637, R794). -/
def Dev.resetHolds (d : Dev) : Dev :=
  if d.power.resetFF then
    { d with intr := { d.intr with st1 := 0, st2 := 0, st3 := 0, st4 := 0, st5 := 0, pwrokNmi := false, nmi := false } }
  else d

/-- The transfers that have become due, the edges of the pins, the interrupts that start the core or power the system up, and the edges
that this makes. -/
def Dev.settle (d : Dev) (free : Word) : Dev :=
  let d := ((d.transfers.pinEdges free).resetHolds).settlePower
  ((d.pinEdges free).resetHolds).settlePower

/-! ## Reads -/

/-- The Revision Register (R527). -/
def revision : Variant → Word
  | .tmpr3911 => 0x02
  | .tmpr3912 => 0x01

/-- A read of one of the two UARTs, `k` the offset from Control 1 (R950 to R956). -/
def Dev.uartRead (d : Dev) (b : Bool) (variant : Variant) (k : Nat) (free : Word) : Option (Word × Dev) :=
  let u := d.uart b
  match k with
  | 0x00 => some (u.control, d)
  | 0x04 => some (free &&& (match variant with
      | .tmpr3911 => 0x3FF
      | .tmpr3912 => 0x7FF), d)
  | 0x08 => some (free &&& 0xFFFFFFFC, d)
  | 0x0C => some (free &&& 0x0000FFFF, d)
  | 0x10 => some (zext u.dmaCnt, d)
  | 0x14 => some (zext u.rxHold, d.withUart b u.readRx d.intr)
  | _ => none

/-- A read of the Magicbus registers (R755 to R762). -/
def Dev.mbusRead (d : Dev) (off : Nat) (free : Word) : Option (Word × Dev) :=
  match off with
  | 0x0E0 => some (d.mbus.control, d)
  | 0x0E4 => some (free &&& 0xFFFF0000, d)
  | 0x0E8 => some (free &&& 0xFFFFFFFC, d)
  | 0x0EC => some (free &&& 0x000FFFFC, d)
  | 0x0F0 => some (placed d.mbus.dmaCnt 2, d)
  | 0x0F4 => some (free, d)
  | 0x0F8 => some (d.mbus.rxHold, { d with mbus := { d.mbus with rxFull := false } })
  | _ => none

/-- A read of the CHI registers (R590 to R600). -/
def Dev.chiRead (d : Dev) (off : Nat) (free : Word) : Option (Word × Dev) :=
  match off with
  | 0x1D8 => some (d.chi.ctl, d)
  | 0x1DC => some (d.chi.ptrEn, d)
  | 0x1E0 | 0x1E4 | 0x1E8 | 0x1EC => some (free &&& 0x1F1F1F1F, d)
  | 0x1F0 => some (d.chi.readSize free, d)
  | 0x1F4 | 0x1F8 => some (free &&& 0xFFFFFFFC, d)
  | 0x1FC => let (w, c) := d.chi.readHold; some (w, { d with chi := c })
  | _ => none

/-- A read of the SIB registers (R860 to R877). -/
def Dev.sibRead (d : Dev) (off : Nat) (free : Word) : Option (Word × Dev) :=
  match off with
  | 0x060 => some (free &&& 0x3FFC3FFC, d)
  | 0x064 | 0x068 | 0x06C | 0x070 => some (free &&& 0xFFFFFFFC, d)
  | _ => (d.sib.read off).map fun w => (w, d)

/-- A read of the IR registers (R710 to R712). -/
def Dev.irRead (d : Dev) (off : Nat) (free : Word) : Option (Word × Dev) :=
  match off with
  | 0x0A0 => some (d.ir.control, d)
  | 0x0A4 => some (free, d)
  | 0x0A8 => some (free &&& 0x0000FFFF, d)
  | _ => none

/-- A read of the video registers (R1020 to R1027). -/
def Dev.videoRead (d : Dev) (off : Nat) (free : Word) : Option (Word × Dev) :=
  if off = 0x028 then some (d.video.control, d) else (videoWriteOnlyMask off).map fun m => (free &&& m, d)

/-- A read of the registers that belong to no module above. A read of SPI Holding does nothing else: R131 lists it among the reads with a side
effect, but R917 gives none (DESIGN CHOICE, log entry 20). -/
def Dev.siuRead (d : Dev) (variant : Variant) (off : Nat) : Option (Word × Dev) :=
  match off with
  | 0x160 => some (d.spi.control, d)
  | 0x164 => some (zext d.spi.rxHold, d)
  | 0x1C0 => some (d.clk, d)
  | 0x1C4 => some (d.power.read, d)
  | 0x1C8 => some (d.siuTest, d)
  | 0x208 => some (revision variant, d)
  | _ => none

/-- A read of the function register at an offset: its value and what the read does; `torn` draws the reads that may meet a count. -/
def Dev.frRead (d : Dev) (variant : Variant) (off : Nat) (free torn : Word) : Option (Word × Dev) :=
  if off < 0x028 then (d.biu.read off free).map fun w => (w, d)
  else if off < 0x060 then d.videoRead off free
  else if off < 0x0A0 then d.sibRead off free
  else if off < 0x0B0 then d.irRead off free
  else if off < 0x0C8 then d.uartRead false variant (off - 0x0B0) free
  else if off < 0x0E0 then d.uartRead true variant (off - 0x0C8) free
  else if off < 0x100 then d.mbusRead off free
  else if off < 0x140 then (d.intr.read off).map fun w => (w, d)
  else if off < 0x160 then (d.timer.read off torn).map fun p => (p.1, { d with timer := p.2 })
  else if 0x180 ≤ off && off < 0x1C0 then (d.ioRead off).map fun w => (w, d)
  else if 0x1D8 ≤ off && off < 0x200 then d.chiRead off free
  else d.siuRead variant off

/-! ## Writes -/

/-- A write of the registers that belong to no module of their own file. -/
def Dev.siuWrite (d : Dev) (off : Nat) (v : Word) : Except Refusal Dev :=
  match off with
  | 0x1C0 => (clkWrite v).map fun w => { d with clk := w }
  | 0x1C4 => .ok (d.powerWrite v)
  | 0x1C8 => if (v &&& 0xFF) != 0 then .error .testBit else .ok d
  | 0x208 => .ok d
  | _ => .error .frOffset

/-- A write of the function register at an offset; `free` draws what an overrun leaves (U-UARTTXOVR, N65-2). -/
def Dev.frWrite (d : Dev) (variant : Variant) (off : Nat) (v free : Word) : Except Refusal Dev :=
  if off < 0x028 then (d.biu.write off v).map fun b => { d with biu := b }
  else if off < 0x060 then (d.video.write off v).map fun x => { d with video := x }
  else if off < 0x0A0 then (d.sib.write off v).map fun x => { d with sib := x }
  else if off < 0x0B0 then (d.ir.write off v).map fun x => { d with ir := x }
  else if off < 0x0C8 then d.uartWrite false variant (off - 0x0B0) v free
  else if off < 0x0E0 then d.uartWrite true variant (off - 0x0C8) v free
  else if off < 0x100 then d.mbusWrite off v free
  else if off < 0x140 then (d.intr.write off v).map fun x => { d with intr := x }
  else if off < 0x160 then (d.timer.write off v).map fun x => { d with timer := x }
  else if off < 0x180 then d.spiWrite off v
  else if off < 0x1C0 then (d.io.write off v).map fun x => { d with io := x }
  else if 0x1D8 ≤ off && off < 0x200 then (d.chi.write off v).map fun x => { d with chi := x }
  else d.siuWrite off v

end Sys2Proof.Machine
end

