-- ==== Sys2Proof/Machine/Map.lean ====
section
/-!
DEFINITION. The address map (spec/21_biu.md): the re-mapper, the regions, the memory banks, what answers an access; and the data cache, which
knows a word by its place behind the map.
-/

namespace Sys2Proof.Machine

/-! ## The address re-mapper (R195) -/

/-- The five MASK values of Table 4.2.3. -/
def maskListed (m : BitVec 4) : Bool := m = 0xF || m = 0xE || m = 0xC || m = 0x8 || m = 0x0

/-- The address lies in the range of a re-mapper whose STARTVAL and MASK are in `sv`. -/
def remapHit (sv pa : Word) : Bool :=
  (pa.extractLsb' 13 19 ++ (pa.extractLsb' 9 4 &&& sv.extractLsb' 0 4) : BitVec 23) = sv.extractLsb' 9 23

/-- The address with the upper bits replaced by those of RMAPADD in `rm`. -/
def remapTo (sv rm pa : Word) : Word :=
  let m : BitVec 4 := sv.extractLsb' 0 4
  rm.extractLsb' 13 19 ++ ((rm.extractLsb' 9 4 &&& m) ||| (pa.extractLsb' 9 4 &&& ~~~m)) ++ (pa.extractLsb' 0 9 : BitVec 9)

/-- Some address lies in both ranges. -/
def remapRangesMeet (s1 s2 : Word) : Bool :=
  let m1 : BitVec 4 := s1.extractLsb' 0 4
  let m2 : BitVec 4 := s2.extractLsb' 0 4
  let v1 : BitVec 4 := s1.extractLsb' 9 4
  let v2 : BitVec 4 := s2.extractLsb' 9 4
  s1.extractLsb' 13 19 = (s2.extractLsb' 13 19 : BitVec 19) && v1 &&& ~~~m1 = 0 && v2 &&& ~~~m2 = 0 && (v1 ^^^ v2) &&& m1 &&& m2 = 0

/-- The physical address after the re-mappers. Whether one feeds the other is in no source (N21-5): a result in the range of the
other is refused as overlapping ranges are. -/
def Biu.remap (b : Biu) (pa : Word) : Except Refusal Word :=
  let en1 := bitOf b.mc0 25
  let en2 := bitOf b.mc0 26
  if !en1 && !en2 then .ok pa
  else if (en1 && !maskListed (b.mc6.extractLsb' 0 4)) || (en2 && !maskListed (b.mc5.extractLsb' 0 4)) then .error .remapMask
  else if en1 && en2 && remapRangesMeet b.mc6 b.mc5 then .error .remapOverlap
  else if en1 && remapHit b.mc6 pa then
    let r := remapTo b.mc6 b.mc8 pa
    if en2 && remapHit b.mc5 r then .error .remapOverlap else .ok r
  else if en2 && remapHit b.mc5 pa then
    let r := remapTo b.mc5 b.mc7 pa
    if en1 && remapHit b.mc6 r then .error .remapOverlap else .ok r
  else .ok pa

/-! ## The physical address map (R181, R189) -/

/-- What a physical address selects. -/
inductive Region where
  | bank (second : Bool)
  | cs (n : Nat)
  | mcs (n : Nat)
  | cardMem (second : Bool)
  | cardAttr (second : Bool)
  | cardIo (second : Bool)
  | functionRegisters
  | sdramMode (second : Bool)
  /-- Reserved and non-enabled locations. -/
  | silent
deriving DecidableEq, Repr

/-- A bank window that CS1 takes over with ENCS1DRAM (R183). -/
def bankOrCs1 (mc0 : Word) (second : Bool) : Region := if bitOf mc0 20 then .cs 1 else .bank second

/-- The address decoder (R189). -/
def regionOf (mc0 mc3 : Word) (pa : Nat) : Region :=
  if pa < 0x10C00000 then
    if pa < 0x02000000 then bankOrCs1 mc0 false
    else if pa < 0x04000000 then bankOrCs1 mc0 true
    else if pa < 0x06000000 then .bank false
    else if pa < 0x08000000 then .bank true
    else if pa < 0x0C000000 then (if bitOf mc3 4 then .cardIo false else .cardAttr false)
    else if pa < 0x10000000 then (if bitOf mc3 5 then .cardIo true else .cardAttr true)
    else if pa < 0x10400000 then .cs 1
    else if pa < 0x10800000 then .cs 2
    else .cs 3
  else if pa < 0x40000000 then
    if pa < 0x10E00000 then .functionRegisters
    else if pa < 0x10F00000 then .sdramMode false
    else if pa < 0x11000000 then .sdramMode true
    else if pa < 0x20000000 then .cs 0
    else .silent
  else if pa < 0x50000000 then
    if pa < 0x42000000 then bankOrCs1 mc0 false
    else if pa < 0x44000000 then bankOrCs1 mc0 true
    else if pa < 0x46000000 then .bank false
    else if pa < 0x48000000 then .bank true
    else .silent
  else if pa < 0x58000000 then .cs 0
  else if pa < 0x5C000000 then (if bitOf mc0 21 then .cs 1 else .silent)
  else if pa < 0x60000000 then (if bitOf mc0 22 then .cs 2 else .silent)
  else if pa < 0x64000000 then (if bitOf mc0 23 then .cs 3 else .silent)
  else if pa < 0x68000000 then .cardMem false
  else if pa < 0x6C000000 then .cardMem true
  else if pa < 0x70000000 then .mcs 0
  else if pa < 0x74000000 then .mcs 1
  else if pa < 0x78000000 then .mcs 2
  else if pa < 0x7C000000 then .mcs 3
  else .silent

/-- What is installed at a chip select, a MCS, a card slot, a bank. -/
def Board.csAttach (b : Board) (n : Nat) : Attach :=
  match n with
  | 0 => b.cs0
  | 1 => b.cs1
  | 2 => b.cs2
  | _ => b.cs3
def Board.mcsAttach (b : Board) (n : Nat) : Attach :=
  match n with
  | 0 => b.mcs0
  | 1 => b.mcs1
  | 2 => b.mcs2
  | _ => b.mcs3
def Board.cardAttach (b : Board) (second : Bool) : Attach := if second then b.card2 else b.card1
def Board.bank (b : Board) (second : Bool) : Bank := if second then b.bank1 else b.bank0

/-- The first cell of the device on chip select `n`. -/
def csBase (n : Nat) : Nat :=
  match n with
  | 0 => 0x50000000
  | 1 => 0x58000000
  | 2 => 0x5C000000
  | _ => 0x60000000

/-! ## The memory banks (R187, R221, D21) -/

/-- A row of Table 4.4.2: the size in bytes, BANKxCONF, and the ROWSEL and COLSEL values whose lists in R191 and R192 are the row's; a four-bank
SDRAM. The lost cells of the table are read from the other rows (N21-4, DEDUCED, log entry 26). -/
structure BankRow where
  bytes : Nat
  conf : BitVec 2
  rowSel : List (BitVec 2)
  colSel : List (BitVec 4)
  fourBank : Bool
deriving DecidableEq, Repr

/-- The rows in the order of the table. -/
def bankRow (n : Fin 20) : BankRow :=
  let row (mb : Nat) (conf : BitVec 2) (rows : List (BitVec 2)) (cols : List (BitVec 4)) : BankRow := ⟨mb * 0x100000, conf, rows, cols, false⟩
  match n.val with
  | 0 => ⟨0x80000, 0, [0], [0], false⟩
  | 1 => row 2 0 [1] [0]
  | 2 => row 2 0 [1] [0, 7, 8]
  | 3 => row 8 0 [2] [0]
  | 4 => row 1 1 [1, 2, 3] [1]
  | 5 => row 2 1 [1, 2, 3] [2, 3, 4]
  | 6 => row 4 1 [2, 3] [2]
  | 7 => row 4 1 [1] [9]
  | 8 => row 8 1 [2] [3, 4]
  | 9 => row 16 1 [3] [3]
  | 10 => row 32 1 [3] [4]
  | 11 => row 2 2 [1] [5]
  | 12 => row 8 2 [1] [6]
  | 13 => row 2 3 [1] [7]
  | 14 => row 4 3 [1] [7]
  | 15 => row 8 3 [1] [8]
  | 16 => row 16 3 [1] [8]
  | 17 => row 8 2 [1] [6]
  | 18 => { row 8 3 [1] [8] with fourBank := true }
  | _ => { row 16 3 [1] [8] with fourBank := true }

/-- The row is one of SDRAM. -/
def BankRow.sdram (r : BankRow) : Bool := r.conf.getLsbD 1

/-- The size of a bank. -/
def Bank.bytes (b : Bank) : Nat :=
  match b.row with
  | some n => (bankRow n).bytes
  | none => 0

/-- A bank holds SDRAM, DRAM. -/
def Bank.holds (b : Bank) (sdram : Bool) : Bool :=
  match b.row with
  | some n => (bankRow n).sdram == sdram
  | none => false

/-- BANKxCONF, ROWSEL, COLSEL (R258). -/
def Biu.bankConf (b : Biu) (second : Bool) : BitVec 2 := if second then fieldOf b.mc0 18 2 else fieldOf b.mc0 16 2
def Biu.rowSel (b : Biu) (second : Bool) : BitVec 2 := if second then fieldOf b.mc0 14 2 else fieldOf b.mc0 12 2
def Biu.colSel (b : Biu) (second : Bool) : BitVec 4 := if second then fieldOf b.mc0 8 4 else fieldOf b.mc0 4 4

/-- The settings are the row's (D21); a four-bank SDRAM works on the TMPR3912 with both banks set to 16-bit SDRAM (R239, C35); HDRAM
works with its enable and DRAM without it (R222), and no SDRAM is HDRAM. -/
def Biu.bankSet (b : Biu) (v : Variant) (second : Bool) (r : BankRow) (hdram : Bool) : Bool :=
  b.bankConf second = r.conf && r.rowSel.contains (b.rowSel second) && r.colSel.contains (b.colSel second) &&
    bitOf b.mc4 (if second then 31 else 30) == hdram && !(hdram && r.sdram) &&
    (!r.fourBank || (v = .tmpr3912 && b.bankConf false = 3 && b.bankConf true = 3))

/-- Software has initialised the bank: eight refresh cycles, for an SDRAM after Precharge All and Mode Register Set (R224, R235, R1071). -/
def Biu.bankReady (b : Biu) (second sdram : Bool) : Bool :=
  8 ≤ (if second then b.refreshes1 else b.refreshes0).toNat &&
    (!sdram || (if second then b.precharged1 && b.sdMode1.isSome else b.precharged0 && b.sdMode0.isSome))

/-- The bank may be accessed: its settings are those of the installed memory (R187, R221), which software has initialised. -/
def Biu.bankCheck (b : Biu) (board : Board) (second : Bool) : Option Refusal :=
  let k := board.bank second
  match k.row with
  | none => none
  | some n =>
    let r := bankRow n
    if !b.bankSet board.variant second r k.hdram || (second && r.sdram && board.bank0.holds false) then some .ramGeometry
    else if !b.bankReady second r.sdram then some .ramNotReady
    else none

/-! ## What an access reaches -/

/-- The cell of a physical address in a region of memory, with what is installed there (R182, R187, R190; the numbering of the cells
is log entry 7). -/
def cellOf (b : Board) (r : Region) (pa : Nat) : Option (Nat × Attach) :=
  let ha := pa % 0x4000000
  match r with
  | .bank second =>
    let k := b.bank second
    let base := if second then 0x02000000 else 0
    some (base + pa % 0x2000000 % k.bytes, if k.bytes = 0 then .nothing else .ram)
  | .cs n => some (csBase n + ha, b.csAttach n)
  | .mcs n => some (0x6C000000 + n * 0x04000000 + ha, b.mcsAttach n)
  | .cardMem second => some ((if second then 0x68000000 else 0x64000000) + ha, b.cardAttach second)
  | .cardAttr second => some ((if second then 0x0C000000 else 0x08000000) + ha, b.cardAttach second)
  | .cardIo second => some ((if second then 0x8C000000 else 0x88000000) + ha, b.cardAttach second)
  | .functionRegisters | .sdramMode _ | .silent => none

/-- The access time of a static device may be used (R210, R213): ACCVAL1 is not 0, and in page mode ACCVAL2 is at least 2. -/
def accessTimeOk (mc : Word) (n : Nat) (page : Bool) : Bool :=
  fieldOf mc (8 * n + 4) 4 != 0 && (!page || 2 ≤ (fieldOf mc (8 * n) 4).toNat)

/-- The region may be accessed (R187, R210, R213, R215). -/
def Biu.check (b : Biu) (board : Board) (r : Region) : Option Refusal :=
  let acc (ok : Bool) : Option Refusal := if ok then none else some .accessTime
  match r with
  | .bank second => b.bankCheck board second
  | .cs n => acc (accessTimeOk b.mc2 n (bitOf b.mc3 (8 + n)))
  | .mcs n => acc (accessTimeOk b.mc1 n (bitOf b.mc3 (12 + n)))
  | .cardMem second => acc (fieldOf b.mc3 (if second then 28 else 24) 4 != 0)
  | .cardAttr second | .cardIo second => acc (fieldOf b.mc3 (if second then 20 else 16) 4 != 0)
  | .functionRegisters | .sdramMode _ | .silent => none

/-- What answers a word access at a physical address. -/
inductive Target where
  | cells (r : Region) (key : Nat) (a : Attach)
  | register (off : Nat)
  | sdramMode (second : Bool)
  /-- Nothing acknowledges: the watch dog ends the transaction, if it is enabled (R188, R242). -/
  | silent
deriving DecidableEq, Repr

/-- Re-map, decode and check an address; `pa` is word aligned. -/
def State.target (s : State) (pa : Word) : Except Refusal Target :=
  match s.dev.biu.remap pa with
  | .error r => .error r
  | .ok pa =>
    let r := regionOf s.dev.biu.mc0 s.dev.biu.mc3 pa.toNat
    match s.dev.biu.check s.board r with
    | some e => .error e
    | none =>
      match r with
      | .functionRegisters => .ok (.register (pa.toNat - 0x10C00000))
      | .sdramMode second => .ok (.sdramMode second)
      | _ => match cellOf s.board r pa.toNat with
        | some (key, a) => .ok (.cells r key a)
        | none => .ok .silent

/-- The address is one of the function registers (R104), after the re-mapper. -/
def Biu.isRegister (b : Biu) (pa : Word) : Bool :=
  match b.remap pa with
  | .ok p => decide (0x10C00000 ≤ p.toNat && p.toNat < 0x10E00000)
  | .error _ => false

/-! ## The places of the data cache (R125) -/

/-- What a buffered write makes of the map: one of a Memory Configuration register changes it (R258 to R266). -/
def Biu.mapAfter (b : Biu) (e : WbEntry) : Biu :=
  match b.remap e.pa with
  | .error _ => b
  | .ok p =>
    if regionOf b.mc0 b.mc3 p.toNat = .functionRegisters then
      match b.write (p.toNat - 0x10C00000) e.data with
      | .ok c => c
      | .error _ => b
    else b

/-- The map that an access of the core meets when the writes before it have been performed, in program order (R126). -/
def State.mapAhead (s : State) : Biu := s.wb.foldl Biu.mapAfter s.dev.biu

/-- The place of a physical address, one for all the addresses that reach it: its cell (log entry 7), with what is installed there. `none` where
no memory is. -/
def State.place (s : State) (pa : Word) : Option (Word × Attach) :=
  let b := s.mapAhead
  match b.remap pa with
  | .ok p => (cellOf s.board (regionOf b.mc0 b.mc3 p.toNat) p.toNat).map fun c => (BitVec.ofNat 32 c.1, c.2)
  | .error _ => none

/-- The word of `pa` in the data cache of the machine, if it holds it. -/
def State.cachedWord (s : State) (pa : Word) : Option Word := (s.place pa).bind fun p => dLookup s.board.dKbyte s.dcache p.1

/-- The data cache with the words of a refill, the first at `pa`; the bits of `free`, one a word, choose the ways. -/
def State.dFill (s : State) (c : Vector DSet 128) (pa free : Word) : List Word → Vector DSet 128
  | [] => c
  | w :: ws =>
    s.dFill (match s.place pa with
      | some (a, _) => dAllocate s.board.dKbyte c a w (bitOf free 0)
      | none => c) (pa + 4) (free >>> 1) ws

/-- The word of a place leaves the data cache. -/
def State.dropPlace (s : State) (a : Word) : State := { s with dcache := dDrop s.board.dKbyte s.dcache a }

/-- The lanes `be` of a word that a store writes. -/
def mergeLanes (old data : Word) (be : BitVec 4) : Word := maskedWrite (laneMask be) old data

/-- A store reaches the data cache when it executes (R121, R125), before it enters the write buffer: a cached one updates the word if the cache
holds its place and the place takes the write, which a ROM does not (log entry 25); it allocates nothing otherwise (DESIGN CHOICE, log entry
16). Whether one through an uncached address updates, invalidates or leaves a matching word is in no source (N20-2): one of the three. -/
def State.cacheStore (s : State) (pa data : Word) (be : BitVec 4) (cached : Bool) : State :=
  match s.place pa with
  | none => s
  | some (a, dev) =>
    match dLookup s.board.dKbyte s.dcache a with
    | none => s
    | some w =>
      let fresh := mergeLanes w data be
      match (if cached then some (if dev = .ram then fresh else w) else s.choose tagUncached (some w) [some fresh, none]) with
      | some v => { s with dcache := dReplace s.board.dKbyte s.dcache a v }
      | none => s.dropPlace a

/-- A DMA write snoops the caches unless DISSNOOP is set (R124): the word of its place leaves the data cache; whether the snoop reaches the
instruction cache is in no source (R129), so its line leaves or stays. -/
def State.snoop (s : State) (pa : Word) (disabled : Bool) : State :=
  if disabled then s
  else { s with dcache := match s.place pa with
                  | some (a, _) => dDrop s.board.dKbyte s.dcache a
                  | none => s.dcache
                icache := if bitOf (s.free tagSnoop) 0 then iDrop s.icache pa else s.icache }

end Sys2Proof.Machine
end

