-- ==== Sys2Proof/Machine/Biu.lean ====
section
/-!
DEFINITION. The Bus Interface Unit (spec/21_biu.md): the transactions, the write buffer, bus reads and writes, the refill of the caches, DMA
transactions and the external bus master.
-/

namespace Sys2Proof.Machine

/-! ## Transactions -/

/-- The card of a region, and whether its port is set to 8 bits (R261). -/
def Region.card : Region → Option Bool
  | .cardMem second | .cardAttr second | .cardIo second => some second
  | _ => none
def Biu.port8 (b : Biu) (second : Bool) : Bool := bitOf b.mc3 3 || bitOf b.mc3 (if second then 2 else 1)

/-- The card chip selects of an access to the lanes `be` (R163, R167): the low one for even addresses, the high one for odd ones; one byte at
an 8-bit port always the low one. -/
def cardSelects (bigEndian port8 : Bool) (be : BitVec 4) : Bool × Bool :=
  let even : BitVec 4 := if bigEndian then 0xA else 0x5
  let one := be = 1 || be = 2 || be = 4 || be = 8
  if port8 && one then (true, false) else (be &&& even != 0, be &&& ~~~even != 0)

/-- The multi-function pins whose standard functions are the selects and strobes of an access (R1104); with SHOWDINO CARDREG* is the chip
select of an access by the processor to a function register (R258; the write buffer's writes count as the processor's, log entry 18). Of the card
accesses those to attribute and I/O space assert CARDREG*, those to memory do not (DESIGN CHOICE, log entry 18). -/
def Biu.strobes (b : Biu) (bigEndian : Bool) (u : BusUser) (t : Target) (be : BitVec 4) (write : Bool) : Word :=
  match t with
  | .register _ => boolAt (bitOf b.mc0 27 && u != .dma) 11
  | .cells (.cs n) _ _ => if n = 0 then 0 else bitMask (23 - n)
  | .cells (.mcs n) _ _ => bitMask (19 - n)
  | .cells r _ _ =>
    match r.card with
    | none => 0
    | some second =>
      let (low, high) := cardSelects bigEndian (b.port8 second) be
      let io := match r with
        | .cardIo _ => true
        | _ => false
      let attr := match r with
        | .cardMem _ => false
        | _ => true
      boolAt low (if second then 6 else 8) ||| boolAt high (if second then 5 else 7) ||| boolAt attr 11 ||| boolAt (io && write) 10 |||
        boolAt (io && !write) 9 ||| boolAt (!write) 2
  | _ => 0

/-- The card whose WAIT* a transaction heeds: the one it accesses, if its WAIT function is enabled (R216). -/
def Biu.heeds (b : Biu) (t : Target) : Option Bool :=
  match t with
  | .cells r _ _ => r.card.filter fun second => bitOf b.mc3 (if second then 7 else 6)
  | _ => none

/-- A card holds WAIT* low and the transaction heeds it (R216). -/
def Dev.waitsFor (d : Dev) (card : Option Bool) : Bool := card.any d.cardWaits

/-- A transaction acknowledges at once, unless a card whose WAIT function is enabled holds WAIT* low (R216) or nothing is there (R188). -/
def Dev.acks (d : Dev) (t : Target) : Bool := t != .silent && !d.waitsFor (d.biu.heeds t)

/-- The access reaches an SDRAM: its memory or its Mode Register. -/
def Biu.reachesSdram (b : Biu) (t : Target) : Bool :=
  match t with
  | .cells (.bank second) _ _ => b.sdramBank second
  | .sdramMode _ => true
  | _ => false

/-- The user may have the bus: it has it, or no transaction is in progress and the bus is not granted away (R241); a step of the core that has
given the bus up does not take it again (R128). -/
def Dev.busFree (d : Dev) (u : BusUser) : Bool :=
  d.biu.turn != .over && match d.biu.held with
    | some v => u = v
    | none => !d.granted

/-- A transaction of `u` starts: it wakes the memory interface unless it is for a function register (R243, R799, D26), and the watch dog counter is
loaded; where nothing is there to acknowledge the counter has run down by the end of it (R242). The first access of an SDRAM ends the state
of its data masks after the wake-up (R258), and each takes it out of power down (R237). -/
def Biu.start (b : Biu) (u : BusUser) (t : Target) : Biu :=
  let isReg := match t with
    | .register _ => true
    | _ => false
  let wakes := b.powerDown && !isReg
  let sdram := b.reachesSdram t
  { b with mc4 := if wakes then withBit b.mc4 16 false else b.mc4
           woken := (b.woken || wakes) && !sdram
           sdIdle := if sdram then 0 else b.sdIdle
           watch := if b.enWatch then (if t = .silent then 0 else fieldOf b.mc4 20 4 ++ 0x3F#6) else b.watch
           held := some u, heeded := b.heeds t }

/-- The machine with a transaction started: the modules settle when the memory interface wakes or a pin strobes. -/
def State.startBus (s : State) (u : BusUser) (t : Target) (be : BitVec 4) (write : Bool) : State :=
  let m := s.dev.biu.strobes s.board.bigEndian u t be write
  let d := { s.dev with biu := s.dev.biu.start u t }
  { s with dev := if m = 0 && d.biu.mc4 = s.dev.biu.mc4 then d else (d.strobe m).settle (s.free tagChi) }

/-- One transaction of the step is done. -/
def BusTurn.next : BusTurn → BusTurn
  | .whole => .whole
  | .one | .over => .over

/-- The transaction is over; an external master that waits for the bus is granted it (R241). -/
def State.endBus (s : State) : State :=
  let d := { s.dev with biu := { s.dev.biu with held := none, heeded := none, turn := s.dev.biu.turn.next } }
  { s with dev := if d.busRequest then d.settle (s.free tagChi) else d }

/-- The watch dog has ended the transaction: its count has reached 0 before an Ack (R242). -/
def Biu.timedOut (b : Biu) : Bool := b.enWatch && b.watch = 0

/-- The transaction on the bus is ended by the watch dog (`false`, R216, R242), whatever comes after its count has reached 0; or it is
acknowledged (`true`), or goes on. -/
def State.acknowledge (s : State) (t : Target) : Res Bool :=
  if s.dev.biu.timedOut then .ok false s.endBus else if s.dev.acks t then .ok true s.endBus else .wait s

/-- One transaction, once the bus is free for it; one that was begun goes on. -/
def State.transact (s : State) (u : BusUser) (t : Target) (be : BitVec 4) (write : Bool) : Res Bool :=
  if !s.dev.busFree u then .wait s else (if s.dev.biu.held.isNone then s.startBus u t be write else s).acknowledge t

/-- One CLK period: of a transaction that has no Ack because a card holds WAIT* (`waits`, R242), and without an access of the SDRAM (R237). The
Ack comes as soon as the card releases WAIT*, so that the count stands from then on (DESIGN CHOICE, log entry 24: the rest of the access
time is not counted). -/
def Biu.busClock (b : Biu) (waits : Bool) : Biu :=
  { b with watch := if waits && b.enWatch && b.watch != 0 then b.watch - 1 else b.watch
           sdIdle := if b.sdIdle = 7 then 7 else b.sdIdle + 1 }

/-! ## Writes -/

/-- The enabled lanes of a word are stored at its cells. -/
def State.storeCells (s : State) (key : Nat) (data : Word) (be : BitVec 4) : State :=
  { s with mem := s.mem.writeLanes s.board.bigEndian key data be }

/-- A write in an SDRAM Mode Register window: Precharge All, or Mode Register Set (R236). A word sent before Precharge All sets no mode, and
the start-up cycles count from the first mode set on (R235). A command that is sent while BANKxCONF is not set to SDRAM yet counts all the
same: R235 puts the configuration first and does not say what an earlier command does (DESIGN CHOICE, log entry 26). -/
def Biu.sdramCommand (b : Biu) (bigEndian second : Bool) (d : Word) : Biu :=
  let cmd := if bigEndian then bitOf d 31 else bitOf d 7
  let abits : BitVec 13 := if bigEndian then d.extractLsb' 0 13 else d.extractLsb' 16 5 ++ (d.extractLsb' 24 8 : BitVec 8)
  match cmd, second with
  | true, false => { b with precharged0 := true }
  | true, true => { b with precharged1 := true }
  | false, false =>
    if b.precharged0 then { b with sdMode0 := some abits, refreshes0 := if b.sdMode0.isNone then 0 else b.refreshes0 } else b
  | false, true =>
    if b.precharged1 then { b with sdMode1 := some abits, refreshes1 := if b.sdMode1.isNone then 0 else b.refreshes1 } else b

/-- One write transaction (R120): the enabled lanes of the word at `e.pa`. A ROM and a place without a device ignore it (log entry
25); one that nothing acknowledges sets WRBUSERRINT when the watch dog ends it (R188, R242), and the word of its place, which the store has
reached there, leaves the data cache (R125, DEDUCED, log entry 16). A write of less than a word in an SDRAM Mode
Register window sends the whole bus word (DESIGN CHOICE, log entry 28), and every byte of a wide write reaches an 8-bit card (N21-3,
DESIGN CHOICE, log entry 49). -/
def State.busWrite (s : State) (e : WbEntry) : Res Unit :=
  match s.target e.pa with
  | .error r => .refused r
  | .ok t =>
    (s.transact .buffer t e.be true).bind fun ack s =>
      if !ack then
        let s : State := { s with dev := { s.dev with biu := { s.dev.biu with wrBusErr := !s.dev.biu.clrWrBusErr } } }
        match t with
        | .cells _ key _ => .ok () (s.dropPlace (BitVec.ofNat 32 key))
        | _ => .ok () s
      else match t with
      | .cells _ key .ram => .ok () (s.storeCells key e.data e.be)
      | .register off =>
        if e.be != 0xF then .refused .frNarrow
        else match s.dev.frWrite s.board.variant off e.data (s.free tagOverrun) with
          | .ok d => .ok () { s with dev := d.settle (s.free tagChi) }
          | .error r => .refused r
      | .sdramMode second => .ok () { s with dev := { s.dev with biu := s.dev.biu.sdramCommand s.board.bigEndian second e.data } }
      | _ => .ok () s

/-- The write buffer performs its oldest entry (R120). -/
def State.drainOne (s : State) : Res Unit :=
  match s.wb with
  | [] => .ok () s
  | e :: es => (s.busWrite e).bind fun _ t => .ok () { t with wb := es }

/-- The write buffer performs `n` entries, or all it has. -/
def State.drain : Nat → State → Res Unit
  | 0, s => .ok () s
  | n + 1, s => if s.wb.isEmpty then .ok () s else s.drainOne.bind fun _ s' => State.drain n s'

/-- The write buffer is emptied, as before every bus read (R121). -/
def State.drainAll (s : State) : Res Unit := State.drain s.wb.length s

/-- A write waits until there is space in the write buffer (R54, R120, R123). -/
def State.makeRoom (s : State) : Res Unit := if s.wb.length < 4 then .ok () s else s.drainOne

/-- It goes behind the others. -/
def State.append (s : State) (e : WbEntry) : State := { s with wb := s.wb ++ [e] }

/-! ## Reads -/

/-- One read transaction of `u`: the word at `pa`, of which the lanes `be` are wanted. One that nothing acknowledges ends in the exception `e`
when the watch dog ends it (R188, R242, R471). Every byte of a wide read comes from an 8-bit card (N21-3, DESIGN CHOICE, log entry
49); a device on CSn has the width that CSnSIZE selects (R162, R166, DESIGN CHOICE, log entry 49). -/
def State.busRead (s : State) (u : BusUser) (pa : Word) (be : BitVec 4) (e : Exc) : Res Word :=
  match s.target pa with
  | .error r => .refused r
  | .ok t =>
    (s.transact u t be false).bind fun ack s =>
      if !ack then .exc e s
      else match t with
      | .cells _ _ .nothing => .refused .noDevice
      | .cells _ key _ => .ok (s.mem.readWord s.board.bigEndian key) s
      | .register off =>
        if be != 0xF then .refused .frNarrow
        else match s.dev.frRead s.board.variant off (s.free tagWriteOnly) (s.free tagTorn) with
        | some (w, d) => .ok w { s with dev := d.settle (s.free tagChi) }
        | none => .refused .frOffset
      | .sdramMode _ => .refused .sdramModeRead
      | .silent => .ok 0 s

/-- A burst of `n` words from `pa` on. Each word is a transaction of its own: between two of them the bus can be granted away, and the watch dog is
loaded anew; a burst that has to wait starts over (DESIGN CHOICE, log entry 16). -/
def State.burstRead (s : State) (u : BusUser) (pa : Word) (e : Exc) : Nat → Res (List Word)
  | 0 => .ok [] s
  | n + 1 => (s.busRead u pa 0xF e).bind fun w s => (s.burstRead u (pa + 4) e n).bind fun ws s => .ok (w :: ws) s

/-- The first address of the block of `n` words that holds `pa`, aligned to its own size: R212 says so of four words, and where a refill of 8, 16
or 32 words begins the spec leaves open (DESIGN CHOICE, log entry 16). -/
def blockBase (pa : Word) (n : Nat) : Word := pa &&& ~~~BitVec.ofNat 32 (4 * n - 1)

/-- A cached fetch (R51, R53), without the instruction streaming that R10 names and nothing describes: a fetch that misses waits for its whole
burst (DESIGN CHOICE, log entry 16). A hit makes no access; a miss reads the burst around `pa` and fills its lines. A refill that ends in a bus error
fills none (R471, DESIGN CHOICE, log entry 16). -/
def State.cachedFetch (s : State) (pa : Word) : Res Word :=
  match iLookup s.icache pa with
  | some w => .ok w s
  | none =>
    let base := blockBase pa s.board.fetchBurst
    (s.burstRead .core base .ibe s.board.fetchBurst).bind fun ws s =>
      .ok (ws.getD ((pa - base).toNat / 4) 0) { s with icache := iFill s.icache base ws }

/-- A cached load (R52, R53): a hit makes no access and leaves the write buffer alone; a miss drains the write buffer (R121), reads the burst
and fills its words; a refill that ends in a bus error fills none (R471, DESIGN CHOICE, log entry 16). -/
def State.cachedLoad (s : State) (pa : Word) : Res Word :=
  match s.cachedWord pa with
  | some w => .ok w s
  | none =>
    s.drainAll.bind fun _ s =>
      let n := s.board.dBurst.words
      let base := blockBase pa n
      (s.burstRead .core base .dbe n).bind fun ws s =>
        .ok (ws.getD ((pa - base).toNat / 4) 0) { s with dcache := s.dFill s.dcache base (s.free tagWay) ws }

/-! ## What the outside world and the DMA engines do -/

/-- The external master writes memory; it reaches no function register (R241). Its writes are not snooped (R124). Without ENSYSCLK only the
32 kHz domain moves (R489). -/
def State.masterWrite (s : State) (pa data : Word) (be : BitVec 4) : State :=
  if s.dev.granted && s.dev.power.ensys then
    let pa := pa &&& 0xFFFFFFFC
    match cellOf s.board (regionOf s.dev.biu.mc0 s.dev.biu.mc3 pa.toNat) pa.toNat with
    | some (key, .ram) => s.storeCells key data be
    | _ => s
  else s

/-- Change the modules and let them settle. -/
def State.mapDev (s : State) (f : Dev → Dev) : State := { s with dev := (f s.dev).settle (s.free tagChi) }

/-- A DMA write enters the write buffer (R123) and snoops the caches unless DISSNOOP is set (R124). -/
def State.dmaWrite (s : State) (pa data : Word) (be : BitVec 4) : Res Unit :=
  s.makeRoom.bind fun _ s => .ok () ((s.snoop pa s.dev.biu.disSnoop).append { pa := pa, data := data, be := be })

/-- A DMA read of lanes `be`: the write buffer is flushed first (R123). -/
def State.dmaRead (s : State) (pa : Word) (be : BitVec 4) : Res Word := (s.drainAll).bind fun _ s => s.busRead .dma pa be .dbe

/-- Four consecutive words. -/
def State.dmaBurst (s : State) (pa : Word) : Res (List Word) :=
  (s.drainAll).bind fun _ s => s.burstRead .dma pa .dbe 4

/-- The byte lane of a byte address (R102). -/
def byteLane (bigEndian : Bool) (a : Word) : Nat := if bigEndian then 3 - (a.toNat % 4) else a.toNat % 4

/-- The word address of a byte address. -/
def wordAddr (a : Word) : Word := a &&& 0xFFFFFFFC

/-- The clock of a module runs (R540). -/
def Dev.clocksUnit (d : Dev) : DmaUnit → Bool
  | .mbus => enMbusClk d.clk
  | .video => enVidClk d.clk
  | .sound | .tel => enSibClk d.clk
  | .chi => enChiClk d.clk
  | .uart b => d.uartClocked b

/-- A transfer of module `u` is complete, and `f` is what that makes of the module. One that a Clock Control write of the write buffer has halted
meanwhile does not move: it asks again when its clock runs (R540; log entry 48). -/
def State.dmaDone (s : State) (u : DmaUnit) (f : Dev → Dev) : Res Unit := .ok () (s.mapDev fun d => if d.clocksUnit u then f d else d)

/-- A Magicbus transaction (R752); whether a character that meets a full holding register replaces its content is free (N65-2). -/
def State.dmaMbus (s : State) (toMemory : Bool) : Res Unit :=
  let m := s.dev.mbus
  if toMemory then
    (s.dmaWrite m.dmaAddr m.rxHold 0xF).bind fun _ s =>
      s.dmaDone .mbus fun d => Dev.mbusAck { d with mbus := { d.mbus with rxFull := false } }
  else (s.dmaRead m.dmaAddr 0xF).bind fun w s => s.dmaDone .mbus fun d => (d.mbusSend w false (bitOf (s.free tagOverrun) 0)).mbusAck

/-- A video burst (R1008). -/
def State.dmaVideo (s : State) : Res Unit :=
  (s.dmaBurst s.dev.video.burstAddr).bind fun ws s => s.dmaDone .video fun d => { d with video := d.video.burst ws }

/-- A sound transaction (R856). -/
def State.dmaSound (s : State) (toMemory : Bool) : Res Unit :=
  let b := s.dev.sib
  if toMemory then (s.dmaWrite (b.sndAddr true) b.sndRxHold 0xF).bind fun _ s => s.dmaDone .sound (·.sndAck true)
  else (s.dmaRead (b.sndAddr false) 0xF).bind fun w s =>
    s.dmaDone .sound fun d => Dev.sndAck { d with sib := { d.sib with sndTxHold := w } } false

/-- A telecom transaction (R856). -/
def State.dmaTel (s : State) (toMemory : Bool) : Res Unit :=
  let b := s.dev.sib
  if toMemory then (s.dmaWrite (b.telAddr true) b.telRxHold 0xF).bind fun _ s => s.dmaDone .tel (·.telAck true)
  else (s.dmaRead (b.telAddr false) 0xF).bind fun w s =>
    s.dmaDone .tel fun d => Dev.telAck { d with sib := { d.sib with telTxHold := w } } false

/-- A CHI transaction (R580, R583). -/
def State.dmaChi (s : State) (toMemory : Bool) : Res Unit :=
  let c := s.dev.chi
  let be := s.board.bigEndian
  if toMemory then
    (s.dmaWrite (c.dmaAddr true) (chiMemory be c.rxData) 0xF).bind fun _ s => s.dmaDone .chi (·.chiAck true (·.rxTaken))
  else (s.dmaRead (c.dmaAddr false) 0xF).bind fun w s => s.dmaDone .chi (·.chiAck false (·.txGiven (chiMemory be w)))

/-- A UART transaction: one byte (R524, R940). -/
def State.dmaUart (s : State) (b toMemory : Bool) : Res Unit :=
  let u := s.dev.uart b
  let l := byteLane s.board.bigEndian u.dmaAddr
  if toMemory then
    (s.dmaWrite (wordAddr u.dmaAddr) (placed u.rxHold (8 * l)) (1#4 <<< l)).bind fun _ s =>
      s.dmaDone (.uart b) fun d => (d.withUart b (d.uart b).readRx d.intr).uartAck b
  else (s.dmaRead (wordAddr u.dmaAddr) (1#4 <<< l)).bind fun w s =>
    s.dmaDone (.uart b) fun d => (d.uartSend b ((laneOf w l).setWidth 9) (s.free tagOverrun)).uartAck b

/-- The DMA transaction of a module. -/
def State.dmaServe (s : State) (j : DmaJob) : Res Unit :=
  match j.unit with
  | .mbus => s.dmaMbus j.toMemory
  | .video => s.dmaVideo
  | .sound => s.dmaSound j.toMemory
  | .tel => s.dmaTel j.toMemory
  | .chi => s.dmaChi j.toMemory
  | .uart b => s.dmaUart b j.toMemory

/-- The pending request of highest priority (R521); a halted module asks for nothing (R540). With ENDMARX and ENDMATX both set, which R752 excludes,
the Magicbus request to receive comes first, and both count with the one counter (DESIGN CHOICE, log entry 41). -/
def Dev.dmaPick (d : Dev) : Option DmaJob :=
  if d.mbusRxReq || d.mbusTxReq then some ⟨.mbus, d.mbusRxReq⟩
  else if d.videoReq then some ⟨.video, false⟩
  else if enSibClk d.clk && d.sib.sndReq then some ⟨.sound, d.sib.sndRxNext⟩
  else if enSibClk d.clk && d.sib.telReq then some ⟨.tel, d.sib.telRxNext⟩
  else if enChiClk d.clk && d.chi.req then some ⟨.chi, d.chi.rxNext⟩
  else if d.uartRxReq false || d.uartTxReq false then some ⟨.uart false, d.uartRxReq false⟩
  else if d.uartRxReq true || d.uartTxReq true then some ⟨.uart true, d.uartRxReq true⟩
  else none

/-- A DMA transaction, in progress until it is complete (R30, R524). -/
def State.dmaRun (s : State) (j : DmaJob) : Res Unit :=
  (State.dmaServe { s with dev := { s.dev with dma := some j } } j).bind fun _ s => .ok () { s with dev := { s.dev with dma := none } }

/-- The SIU goes on with the DMA transaction in progress, or grants the pending request of highest priority once the bus is free (R521):
no lock of the core keeps it off, and between any two bus transactions of the core its turn can come (R128, `State.coreTurn`). -/
def State.dmaGrant (s : State) : Res Unit :=
  match s.dev.dma with
  | some j => s.dmaRun j
  | none =>
    if !s.dev.busFree .dma then .wait s
    else match s.dev.dmaPick with
      | some j => s.dmaRun j
      | none => .ok () s

end Sys2Proof.Machine
end

