-- ==== Sys2Proof/Machine/Flags.lean ====
section
/-!
DEFINITION. The core has no condition flags (R34). What it computes in their place: signed overflow, which `add`, `addi`, `sub` trap on
(R340), and the comparisons of the compare and branch instructions.
-/

namespace Sys2Proof.Machine

/-- Signed overflow of `a + b` (R340). -/
def addOverflow (a b : Word) : Bool := a.getLsbD 31 == b.getLsbD 31 && (a + b).getLsbD 31 != a.getLsbD 31

/-- Signed overflow of `a - b` (R340). -/
def subOverflow (a b : Word) : Bool := a.getLsbD 31 != b.getLsbD 31 && (a - b).getLsbD 31 != a.getLsbD 31

/-- Signed comparison (R349). -/
def lessSigned (a b : Word) : Bool := decide (signed a < signed b)

/-- Unsigned comparison (R350). -/
def lessUnsigned (a b : Word) : Bool := decide (unsigned a < unsigned b)

/-- A truth value as a register: 1 or 0. -/
def boolWord (b : Bool) : Word := if b then 1 else 0

/-- The sign bit. -/
def negative (a : Word) : Bool := a.getLsbD 31

end Sys2Proof.Machine
end

