-- ==== Sys2Proof/Machine/Operands.lean ====
section
/-!
DEFINITION. Operands: the effective address and the targets, translation (spec/20_memory.md R105 to R114), data accesses and fetches
(R281, R420), and which general registers an instruction reads and writes.
-/

namespace Sys2Proof.Machine

/-! ## Addresses (R284, R402, R420) -/

/-- The effective address of a load or store. -/
def State.effAddr (s : State) (rs : Reg) (imm : BitVec 16) : Word := s.opReg rs + sext imm

/-- The target of a branch. -/
def State.branchTarget (s : State) (imm : BitVec 16) : Word := s.pc + 4 + (sext imm <<< 2)

/-- The target of `j` and `jal`. -/
def State.jumpTarget (s : State) (target : BitVec 26) : Word := (s.pc + 4).extractLsb' 28 4 ++ target ++ (0#2)

/-- What a link register receives: the address after the delay slot (R400). -/
def State.linkAddr (s : State) : Word := s.pc + 8

/-! ## Translation (R106, R110) -/

/-- What an access is for. -/
inductive AccessKind where
  | fetch
  | load
  | store
deriving DecidableEq, Repr

/-- The Address Error of an access (R470). -/
def AccessKind.addressError : AccessKind → Word → Exc
  | .store, va => .ades va
  | .fetch, va | .load, va => .adel va

/-- The TLB refill or invalid exception of an access (R110). -/
def AccessKind.tlbError : AccessKind → Word → Bool → Exc
  | .store, va, refill => .tlbs va refill
  | .fetch, va, refill | .load, va, refill => .tlbl va refill

/-- How a segment maps an address. -/
inductive Segment where
  | direct (pa : Word) (cached : Bool)
  | mapped
deriving DecidableEq, Repr

/-- The segments (R106). -/
def segmentOf (va : Word) : Segment :=
  if !va.getLsbD 31 then .mapped
  else if !va.getLsbD 30 then .direct (va &&& 0x1FFFFFFF) (!va.getLsbD 29)
  else if 0xFF000000 ≤ va.toNat && va.toNat < 0xFFFF0000 then .direct va false
  else .mapped

/-- An entry matches a page number and a process identifier (R110). -/
def TlbEntry.hit (e : TlbEntry) (vpn : BitVec 20) (pid : BitVec 6) : Bool := e.vpn == vpn && (e.g || e.pid == pid)

/-- The numbers of the matching entries, rising. -/
def tlbHits (t : Vector TlbEntry 32) (vpn : BitVec 20) (pid : BitVec 6) : List (BitVec 5) :=
  ((List.range 32).map (BitVec.ofNat 5)).filter fun i => (t[i.toNat]'i.isLt).hit vpn pid

/-- One of the matching entries: which, with more than one, is open (R113); `tag` is the draw. -/
def State.pickHit (s : State) (tag : Nat) : List (BitVec 5) → Option (BitVec 5)
  | [] => none
  | [i] => some i
  | i :: is => some ((i :: is).getD ((s.free tag).toNat % (is.length + 1)) i)

/-- The draws of an access: those of a fetch are apart from those of the instruction. -/
def AccessKind.draw (k : AccessKind) (tag : Nat) : Nat := if k = .fetch then tagFetch + tag else tag

/-- Translation of a virtual address, with the mode check of R107: the physical address and whether the access is cached. -/
def State.translate (s : State) (k : AccessKind) (va : Word) : Res (Word × Bool) :=
  if va.getLsbD 31 && s.userMode (k.draw tagStatus) then .exc (k.addressError va) s
  else match segmentOf va with
    | .direct pa cached => .ok (pa, cached) s
    | .mapped =>
      let t := s.seenTlb (k.draw tagTlb)
      let pid := (s.seenEntryHi (k.draw tagEntryHi) true true).extractLsb' 6 6
      match s.pickHit (k.draw tagMultiHit) (tlbHits t (va.extractLsb' 12 20) pid) with
      | none => .exc (k.tlbError va true) s
      | some i =>
        let e := t[i.toNat]'i.isLt
        if !e.v then .exc (k.tlbError va false) s
        else if k = .store && !e.d then .exc (.mod va) s
        else .ok (e.pfn ++ va.extractLsb' 0 12, !e.n) s

/-! ## Accesses -/

/-- A bus transaction of this moment at the address is one of a function register. -/
def State.isRegister (s : State) (pa : Word) : Bool := s.dev.biu.isRegister pa

/-- Function registers take word accesses of data through uncached addresses only (R104, R131, D10, D11). The map that decides is the one that the
access meets in program order, after the Memory Configuration writes that still stand in the write buffer (R420 does not say which; R126, DEDUCED,
log entry 21). -/
def State.registerCheck (s : State) (pa : Word) (cached : Bool) (be : BitVec 4) : Option Refusal :=
  if s.mapAhead.isRegister pa then (if cached then some .frCached else if be != 0xF then some .frNarrow else none) else none

/-- The read of a load: an uncached one after the write buffer has drained (R121). -/
def State.dataRead (s : State) (pa : Word) (cached : Bool) (be : BitVec 4) : Res Word :=
  if cached then
    match s.registerCheck pa true be with
    | some r => .refused r
    | none => s.cachedLoad (wordAddr pa)
  else s.drainAll.bind fun _ s =>
    match s.registerCheck pa false be with
    | some r => .refused r
    | none => s.busRead .core (wordAddr pa) be .dbe

/-- Alignment (R115, R421): `size` is 1, 2 or 4. -/
def aligned (size : Nat) (va : Word) : Bool := va.toNat % size = 0

/-- The word that a load of `size` bytes at `va` reads, lanes `be` of it used (R420). -/
def State.loadWord (s : State) (va : Word) (size : Nat) (be : BitVec 4) : Res Word :=
  if !aligned size va then .exc (.adel va) s
  else (s.translate .load va).bind fun p s => s.dataRead p.1 p.2 be

/-- A store of the lanes `be` of `data` in the word of `va`: once there is space it reaches the data cache (R125) and enters the
write buffer (R120, R420). -/
def State.storeWord (s : State) (va : Word) (size : Nat) (data : Word) (be : BitVec 4) : Res Unit :=
  if !aligned size va then .exc (.ades va) s
  else (s.translate .store va).bind fun p s =>
    match s.registerCheck p.1 p.2 be with
    | some r => .refused r
    | none =>
      s.makeRoom.bind fun _ s =>
        .ok () ((s.cacheStore (wordAddr p.1) data be p.2).append { pa := wordAddr p.1, data := data, be := be })

/-- The instruction fetch at `pc` (R281): a cached fetch goes ahead of the write buffer (R122), and so meets the map as it is (DEDUCED, log entry
21), an uncached one after it (R121). -/
def State.fetch (s : State) : Res Word :=
  if !aligned 4 s.pc then .exc (.adel s.pc) s
  else (s.translate .fetch s.pc).bind fun p s =>
    if p.2 then
      if s.isRegister p.1 then .refused .frCached else s.cachedFetch p.1
    else s.drainAll.bind fun _ s => s.busRead .core p.1 0xF .ibe

/-! ## Byte lanes (R102, R103) -/

/-- The lane of a byte, the lower lane of a half-word at an address. -/
def halfLane (bigEndian : Bool) (va : Word) : Nat := if bigEndian then 2 - 2 * (va.toNat / 2 % 2) else 2 * (va.toNat / 2 % 2)

/-- Byte enables of a byte, of a half-word. -/
def byteEnable (l : Nat) : BitVec 4 := 1#4 <<< l
def halfEnable (l : Nat) : BitVec 4 := 3#4 <<< l

/-- The half-word at a lane. -/
def halfOf (w : Word) (l : Nat) : Half := w.extractLsb' (8 * l) 16

/-- The shift of `lwl` and `swl`, of `lwr` and `swr`, in bytes (R430 to R433). -/
def leftShift (bigEndian : Bool) (va : Word) : Nat := if bigEndian then va.toNat % 4 else 3 - va.toNat % 4
def rightShift (bigEndian : Bool) (va : Word) : Nat := if bigEndian then 3 - va.toNat % 4 else va.toNat % 4

/-- The lanes that `lwl` and `swl`, `lwr` and `swr` touch. -/
def leftEnable (k : Nat) : BitVec 4 := 0xF#4 >>> k
def rightEnable (k : Nat) : BitVec 4 := 0xF#4 <<< k

/-- The merges of `lwl` and `lwr` (R430, R431). -/
def mergeLeft (w old : Word) (k : Nat) : Word := (w <<< (8 * k)) ||| (old &&& ~~~(0xFFFFFFFF#32 <<< (8 * k)))
def mergeRight (w old : Word) (k : Nat) : Word := (old &&& ~~~(0xFFFFFFFF#32 >>> (8 * k))) ||| (w >>> (8 * k))

/-! ## Which registers an instruction reads and writes (R1080, R1081) -/

/-- The general registers an instruction reads. -/
def sourcesOf : Instr → List Reg
  | .add rs rt _ => [rs, rt]
  | .addu rs rt _ => [rs, rt]
  | .sub rs rt _ => [rs, rt]
  | .subu rs rt _ => [rs, rt]
  | .and rs rt _ => [rs, rt]
  | .or rs rt _ => [rs, rt]
  | .xor rs rt _ => [rs, rt]
  | .nor rs rt _ => [rs, rt]
  | .slt rs rt _ => [rs, rt]
  | .sltu rs rt _ => [rs, rt]
  | .addi rs _ _ => [rs]
  | .addiu rs _ _ => [rs]
  | .slti rs _ _ => [rs]
  | .sltiu rs _ _ => [rs]
  | .andi rs _ _ => [rs]
  | .ori rs _ _ => [rs]
  | .xori rs _ _ => [rs]
  | .lui _ _ => []
  | .sll rt _ _ => [rt]
  | .srl rt _ _ => [rt]
  | .sra rt _ _ => [rt]
  | .sllv rs rt _ => [rs, rt]
  | .srlv rs rt _ => [rs, rt]
  | .srav rs rt _ => [rs, rt]
  | .mult rs rt _ => [rs, rt]
  | .multu rs rt _ => [rs, rt]
  | .div rs rt => [rs, rt]
  | .divu rs rt => [rs, rt]
  | .mfhi _ => []
  | .mthi rs => [rs]
  | .mflo _ => []
  | .mtlo rs => [rs]
  | .madd rs rt _ => [rs, rt]
  | .maddu rs rt _ => [rs, rt]
  | .j _ => []
  | .jal _ => []
  | .jr rs => [rs]
  | .jalr rs _ => [rs]
  | .beq rs rt _ => [rs, rt]
  | .bne rs rt _ => [rs, rt]
  | .blez rs _ => [rs]
  | .bgtz rs _ => [rs]
  | .bltz rs _ => [rs]
  | .bgez rs _ => [rs]
  | .bltzl rs _ => [rs]
  | .bgezl rs _ => [rs]
  | .bltzal rs _ => [rs]
  | .bgezal rs _ => [rs]
  | .bltzall rs _ => [rs]
  | .bgezall rs _ => [rs]
  | .beql rs rt _ => [rs, rt]
  | .bnel rs rt _ => [rs, rt]
  | .blezl rs _ => [rs]
  | .bgtzl rs _ => [rs]
  | .lb rs _ _ => [rs]
  | .lh rs _ _ => [rs]
  | .lwl rs rt _ => [rs, rt]
  | .lw rs _ _ => [rs]
  | .lbu rs _ _ => [rs]
  | .lhu rs _ _ => [rs]
  | .lwr rs rt _ => [rs, rt]
  | .sb rs rt _ => [rs, rt]
  | .sh rs rt _ => [rs, rt]
  | .swl rs rt _ => [rs, rt]
  | .sw rs rt _ => [rs, rt]
  | .swr rs rt _ => [rs, rt]
  | .syscall _ => []
  | .brk _ => []
  | .sync => []
  | .mfc0 _ _ => []
  | .mtc0 rt _ => [rt]
  | .tlbr => []
  | .tlbwi => []
  | .tlbwr => []
  | .tlbp => []
  | .rfe => []
  | .mfc1 _ _ => []
  | .cfc1 _ _ => []
  | .mtc1 _ _ => []
  | .ctc1 _ _ => []
  | .bc1f _ => []
  | .bc1t _ => []
  | .cop1 _ => []
  | .mfc2 _ _ => []
  | .cfc2 _ _ => []
  | .mtc2 _ _ => []
  | .ctc2 _ _ => []
  | .bc2f _ => []
  | .bc2t _ => []
  | .cop2 _ => []
  | .mfc3 _ _ => []
  | .cfc3 _ _ => []
  | .mtc3 _ _ => []
  | .ctc3 _ _ => []
  | .bc3f _ => []
  | .bc3t _ => []
  | .cop3 _ => []
  | .cache _ _ _ => []
  | .sdbbp _ => []
  | .deret => []
  | .bc1fl _ => []
  | .bc1tl _ => []
  | .bc2fl _ => []
  | .bc2tl _ => []
  | .bc3fl _ => []
  | .bc3tl _ => []
  | .lwc0 _ _ _ => []
  | .swc0 _ _ _ => []
  | .lwc1 _ _ _ => []
  | .swc1 _ _ _ => []
  | .lwc2 _ _ _ => []
  | .swc2 _ _ _ => []
  | .lwc3 _ _ _ => []
  | .swc3 _ _ _ => []

/-- The general register an instruction writes. -/
def destOf : Instr → Option Reg
  | .add _ _ rd => some rd
  | .addu _ _ rd => some rd
  | .sub _ _ rd => some rd
  | .subu _ _ rd => some rd
  | .and _ _ rd => some rd
  | .or _ _ rd => some rd
  | .xor _ _ rd => some rd
  | .nor _ _ rd => some rd
  | .slt _ _ rd => some rd
  | .sltu _ _ rd => some rd
  | .addi _ rt _ => some rt
  | .addiu _ rt _ => some rt
  | .slti _ rt _ => some rt
  | .sltiu _ rt _ => some rt
  | .andi _ rt _ => some rt
  | .ori _ rt _ => some rt
  | .xori _ rt _ => some rt
  | .lui rt _ => some rt
  | .sll _ rd _ => some rd
  | .srl _ rd _ => some rd
  | .sra _ rd _ => some rd
  | .sllv _ _ rd => some rd
  | .srlv _ _ rd => some rd
  | .srav _ _ rd => some rd
  | .mult _ _ rd => some rd
  | .multu _ _ rd => some rd
  | .div _ _ => none
  | .divu _ _ => none
  | .mfhi rd => some rd
  | .mthi _ => none
  | .mflo rd => some rd
  | .mtlo _ => none
  | .madd _ _ rd => some rd
  | .maddu _ _ rd => some rd
  | .j _ => none
  | .jal _ => some 31
  | .jr _ => none
  | .jalr _ rd => some rd
  | .beq _ _ _ => none
  | .bne _ _ _ => none
  | .blez _ _ => none
  | .bgtz _ _ => none
  | .bltz _ _ => none
  | .bgez _ _ => none
  | .bltzl _ _ => none
  | .bgezl _ _ => none
  | .bltzal _ _ => some 31
  | .bgezal _ _ => some 31
  | .bltzall _ _ => some 31
  | .bgezall _ _ => some 31
  | .beql _ _ _ => none
  | .bnel _ _ _ => none
  | .blezl _ _ => none
  | .bgtzl _ _ => none
  | .lb _ rt _ => some rt
  | .lh _ rt _ => some rt
  | .lwl _ rt _ => some rt
  | .lw _ rt _ => some rt
  | .lbu _ rt _ => some rt
  | .lhu _ rt _ => some rt
  | .lwr _ rt _ => some rt
  | .sb _ _ _ => none
  | .sh _ _ _ => none
  | .swl _ _ _ => none
  | .sw _ _ _ => none
  | .swr _ _ _ => none
  | .syscall _ => none
  | .brk _ => none
  | .sync => none
  | .mfc0 rt _ => some rt
  | .mtc0 _ _ => none
  | .tlbr => none
  | .tlbwi => none
  | .tlbwr => none
  | .tlbp => none
  | .rfe => none
  | .mfc1 _ _ => none
  | .cfc1 _ _ => none
  | .mtc1 _ _ => none
  | .ctc1 _ _ => none
  | .bc1f _ => none
  | .bc1t _ => none
  | .cop1 _ => none
  | .mfc2 _ _ => none
  | .cfc2 _ _ => none
  | .mtc2 _ _ => none
  | .ctc2 _ _ => none
  | .bc2f _ => none
  | .bc2t _ => none
  | .cop2 _ => none
  | .mfc3 _ _ => none
  | .cfc3 _ _ => none
  | .mtc3 _ _ => none
  | .ctc3 _ _ => none
  | .bc3f _ => none
  | .bc3t _ => none
  | .cop3 _ => none
  | .cache _ _ _ => none
  | .sdbbp _ => none
  | .deret => none
  | .bc1fl _ => none
  | .bc1tl _ => none
  | .bc2fl _ => none
  | .bc2tl _ => none
  | .bc3fl _ => none
  | .bc3tl _ => none
  | .lwc0 _ _ _ => none
  | .swc0 _ _ _ => none
  | .lwc1 _ _ _ => none
  | .swc1 _ _ _ => none
  | .lwc2 _ _ _ => none
  | .swc2 _ _ _ => none
  | .lwc3 _ _ _ => none
  | .swc3 _ _ _ => none

/-- The instructions that load their register, whose old value the next instruction may still read (R1080). -/
def loadsRegister : Instr → Bool
  | .lb _ _ _ | .lbu _ _ _ | .lh _ _ _ | .lhu _ _ _ | .lw _ _ _ | .lwl _ _ _ | .lwr _ _ _ | .mfc0 _ _ => true
  | _ => false

/-- The instruction is noted in the traces of the last `mfhi` and `mflo` before it executes (R1081). -/
def State.noteUse (s : State) (i : Instr) : State :=
  { s with recent := s.recent.map (Trace.note (sourcesOf i) (destOf i) (loadsRegister i)) }

end Sys2Proof.Machine
end

