-- ==== Sys2Proof/Machine/Alu.lean ====
section
/-!
DEFINITION. Integer arithmetic, logical and compare instructions (spec/41_alu.md R341 to R358).
-/

namespace Sys2Proof.Machine

/-- A result written to a register; the instruction completes. -/
def State.finish (s : State) (rd : Reg) (v : Word) : State := (s.setReg rd v).retire .plain

/-- An arithmetic instruction of two operands. -/
def State.alu (s : State) (rd : Reg) (v : Word) : Host.Outcome State Fault Refusal := .next (s.finish rd v)

/-- An arithmetic instruction that traps on signed overflow: the destination is not written (R340). -/
def State.aluTrap (s : State) (rd : Reg) (overflow : Bool) (v : Word) : Host.Outcome State Fault Refusal :=
  if overflow then .next (s.raise .ov) else .next (s.finish rd v)

/-- `add` (R341). -/
def execAdd (rs rt rd : Reg) (s : State) : Host.Outcome State Fault Refusal :=
  s.aluTrap rd (addOverflow (s.opReg rs) (s.opReg rt)) (s.opReg rs + s.opReg rt)

/-- `addu` (R342). -/
def execAddu (rs rt rd : Reg) (s : State) : Host.Outcome State Fault Refusal :=
  s.alu rd (s.opReg rs + s.opReg rt)

/-- `sub` (R343). -/
def execSub (rs rt rd : Reg) (s : State) : Host.Outcome State Fault Refusal :=
  s.aluTrap rd (subOverflow (s.opReg rs) (s.opReg rt)) (s.opReg rs - s.opReg rt)

/-- `subu` (R344). -/
def execSubu (rs rt rd : Reg) (s : State) : Host.Outcome State Fault Refusal :=
  s.alu rd (s.opReg rs - s.opReg rt)

/-- `and` (R345). -/
def execAnd (rs rt rd : Reg) (s : State) : Host.Outcome State Fault Refusal :=
  s.alu rd (s.opReg rs &&& s.opReg rt)

/-- `or` (R346). -/
def execOr (rs rt rd : Reg) (s : State) : Host.Outcome State Fault Refusal :=
  s.alu rd (s.opReg rs ||| s.opReg rt)

/-- `xor` (R347). -/
def execXor (rs rt rd : Reg) (s : State) : Host.Outcome State Fault Refusal :=
  s.alu rd (s.opReg rs ^^^ s.opReg rt)

/-- `nor` (R348). -/
def execNor (rs rt rd : Reg) (s : State) : Host.Outcome State Fault Refusal :=
  s.alu rd (~~~(s.opReg rs ||| s.opReg rt))

/-- `slt` (R349). -/
def execSlt (rs rt rd : Reg) (s : State) : Host.Outcome State Fault Refusal :=
  s.alu rd (boolWord (lessSigned (s.opReg rs) (s.opReg rt)))

/-- `sltu` (R350). -/
def execSltu (rs rt rd : Reg) (s : State) : Host.Outcome State Fault Refusal :=
  s.alu rd (boolWord (lessUnsigned (s.opReg rs) (s.opReg rt)))

/-- `addi` (R351). -/
def execAddi (rs rt : Reg) (imm : BitVec 16) (s : State) : Host.Outcome State Fault Refusal :=
  s.aluTrap rt (addOverflow (s.opReg rs) (sext imm)) (s.opReg rs + sext imm)

/-- `addiu` (R352). -/
def execAddiu (rs rt : Reg) (imm : BitVec 16) (s : State) : Host.Outcome State Fault Refusal :=
  s.alu rt (s.opReg rs + sext imm)

/-- `slti` (R353). -/
def execSlti (rs rt : Reg) (imm : BitVec 16) (s : State) : Host.Outcome State Fault Refusal :=
  s.alu rt (boolWord (lessSigned (s.opReg rs) (sext imm)))

/-- `sltiu`: the immediate is sign-extended, then compared as unsigned (R354). -/
def execSltiu (rs rt : Reg) (imm : BitVec 16) (s : State) : Host.Outcome State Fault Refusal :=
  s.alu rt (boolWord (lessUnsigned (s.opReg rs) (sext imm)))

/-- `andi` (R355). -/
def execAndi (rs rt : Reg) (imm : BitVec 16) (s : State) : Host.Outcome State Fault Refusal :=
  s.alu rt (s.opReg rs &&& zext imm)

/-- `ori` (R356). -/
def execOri (rs rt : Reg) (imm : BitVec 16) (s : State) : Host.Outcome State Fault Refusal :=
  s.alu rt (s.opReg rs ||| zext imm)

/-- `xori` (R357). -/
def execXori (rs rt : Reg) (imm : BitVec 16) (s : State) : Host.Outcome State Fault Refusal :=
  s.alu rt (s.opReg rs ^^^ zext imm)

/-- `lui` (R358). -/
def execLui (rt : Reg) (imm : BitVec 16) (s : State) : Host.Outcome State Fault Refusal :=
  s.alu rt (imm ++ 0#16)

end Sys2Proof.Machine
end

