-- ==== Sys2Proof/Machine/Branch.lean ====
section
/-!
DEFINITION. Jumps and branches (spec/43_branch_jump.md R400 to R419, R1200 to R1202).
-/

namespace Sys2Proof.Machine

/-- A jump or branch in a delay slot is refused (R401, U-BRDS); otherwise `k` is the next state. -/
def State.transfer (s : State) (k : State) : Host.Outcome State Fault Refusal := if s.ds then .refused .branchInDelaySlot else .next k

/-- A branch (R400): taken or not, the delay slot follows. -/
def State.branch (s : State) (taken : Bool) (imm : BitVec 16) : Host.Outcome State Fault Refusal :=
  s.transfer (if taken then s.jumpTo (s.branchTarget imm) else s.fallThrough)

/-- A likely branch: when it is not taken its delay slot is nullified (R414). -/
def State.branchLikely (s : State) (taken : Bool) (imm : BitVec 16) : Host.Outcome State Fault Refusal :=
  s.transfer (if taken then s.jumpTo (s.branchTarget imm) else s.nullify)

/-- The state with the link register written (R400). -/
def State.link (s : State) : State := s.setReg 31 s.linkAddr

/-- A linking branch: register 31 is written whether or not it is taken; `rs` = 31 is refused (R412, U-BALRS31). -/
def State.branchLink (s : State) (rs : Reg) (taken : Bool) (imm : BitVec 16) : Host.Outcome State Fault Refusal :=
  if rs = 31 then .refused .linkOnLinkRegister
  else s.transfer (if taken then s.link.jumpTo (s.branchTarget imm) else s.link.fallThrough)

/-- A linking likely branch (R1201, R1202). -/
def State.branchLinkLikely (s : State) (rs : Reg) (taken : Bool) (imm : BitVec 16) : Host.Outcome State Fault Refusal :=
  if rs = 31 then .refused .linkOnLinkRegister
  else s.transfer (if taken then s.link.jumpTo (s.branchTarget imm) else s.link.nullify)

/-- `j` (R402). -/
def execJ (target : BitVec 26) (s : State) : Host.Outcome State Fault Refusal :=
  s.transfer (s.jumpTo (s.jumpTarget target))

/-- `jal` (R403). -/
def execJal (target : BitVec 26) (s : State) : Host.Outcome State Fault Refusal :=
  s.transfer (s.link.jumpTo (s.jumpTarget target))

/-- `jr` (R404). -/
def execJr (rs : Reg) (s : State) : Host.Outcome State Fault Refusal :=
  s.transfer (s.jumpTo (s.opReg rs))

/-- `jalr`: `rd` = `rs` is refused (R405, U-JALRSAME). -/
def execJalr (rs rd : Reg) (s : State) : Host.Outcome State Fault Refusal :=
  if rd = rs then .refused .jalrSameRegister else s.transfer ((s.setReg rd s.linkAddr).jumpTo (s.opReg rs))

/-- `beq` (R406). -/
def execBeq (rs rt : Reg) (imm : BitVec 16) (s : State) : Host.Outcome State Fault Refusal :=
  s.branch (s.opReg rs == s.opReg rt) imm

/-- `bne` (R407). -/
def execBne (rs rt : Reg) (imm : BitVec 16) (s : State) : Host.Outcome State Fault Refusal :=
  s.branch (s.opReg rs != s.opReg rt) imm

/-- `blez` (R408). -/
def execBlez (rs : Reg) (imm : BitVec 16) (s : State) : Host.Outcome State Fault Refusal :=
  s.branch (negative (s.opReg rs) || s.opReg rs == 0) imm

/-- `bgtz` (R409). -/
def execBgtz (rs : Reg) (imm : BitVec 16) (s : State) : Host.Outcome State Fault Refusal :=
  s.branch (!negative (s.opReg rs) && s.opReg rs != 0) imm

/-- `bltz` (R410). -/
def execBltz (rs : Reg) (imm : BitVec 16) (s : State) : Host.Outcome State Fault Refusal :=
  s.branch (negative (s.opReg rs)) imm

/-- `bgez` (R411). -/
def execBgez (rs : Reg) (imm : BitVec 16) (s : State) : Host.Outcome State Fault Refusal :=
  s.branch (!negative (s.opReg rs)) imm

/-- `bltzal` (R412). -/
def execBltzal (rs : Reg) (imm : BitVec 16) (s : State) : Host.Outcome State Fault Refusal :=
  s.branchLink rs (negative (s.opReg rs)) imm

/-- `bgezal` (R413). -/
def execBgezal (rs : Reg) (imm : BitVec 16) (s : State) : Host.Outcome State Fault Refusal :=
  s.branchLink rs (!negative (s.opReg rs)) imm

/-- `beql` (R415). -/
def execBeql (rs rt : Reg) (imm : BitVec 16) (s : State) : Host.Outcome State Fault Refusal :=
  s.branchLikely (s.opReg rs == s.opReg rt) imm

/-- `bnel` (R416). -/
def execBnel (rs rt : Reg) (imm : BitVec 16) (s : State) : Host.Outcome State Fault Refusal :=
  s.branchLikely (s.opReg rs != s.opReg rt) imm

/-- `blezl` (R417). -/
def execBlezl (rs : Reg) (imm : BitVec 16) (s : State) : Host.Outcome State Fault Refusal :=
  s.branchLikely (negative (s.opReg rs) || s.opReg rs == 0) imm

/-- `bgtzl` (R418). -/
def execBgtzl (rs : Reg) (imm : BitVec 16) (s : State) : Host.Outcome State Fault Refusal :=
  s.branchLikely (!negative (s.opReg rs) && s.opReg rs != 0) imm

/-- `bltzl` (R419). -/
def execBltzl (rs : Reg) (imm : BitVec 16) (s : State) : Host.Outcome State Fault Refusal :=
  s.branchLikely (negative (s.opReg rs)) imm

/-- `bgezl` (R1200). -/
def execBgezl (rs : Reg) (imm : BitVec 16) (s : State) : Host.Outcome State Fault Refusal :=
  s.branchLikely (!negative (s.opReg rs)) imm

/-- `bltzall` (R1201). -/
def execBltzall (rs : Reg) (imm : BitVec 16) (s : State) : Host.Outcome State Fault Refusal :=
  s.branchLinkLikely rs (negative (s.opReg rs)) imm

/-- `bgezall` (R1202). -/
def execBgezall (rs : Reg) (imm : BitVec 16) (s : State) : Host.Outcome State Fault Refusal :=
  s.branchLinkLikely rs (!negative (s.opReg rs)) imm

end Sys2Proof.Machine
end

