-- ==== Sys2Proof/Machine/Cop.lean ====
section
/-!
DEFINITION. Coprocessors 1 to 3 (spec/45_system.md R442 to R449).
-/

namespace Sys2Proof.Machine

/-- Coprocessor `z` must be usable, else Coprocessor Unusable with CE = z (R446). -/
def State.withCop (s : State) (z : Nat) (k : Host.Outcome State Fault Refusal) : Host.Outcome State Fault Refusal :=
  if s.copUsable z then k else .next (s.raise (.cpu (BitVec.ofNat 2 z)))

/-- A coprocessor operation: no coprocessor 1 to 3 is described (R442 to R445, R449, D31). -/
def State.copOperation (s : State) (z : Nat) : Host.Outcome State Fault Refusal := s.withCop z (.refused .coprocessorAbsent)

/-- A branch on the condition of coprocessor 1 or 2, which no source describes (R447). -/
def State.copCondition (s : State) (z : Nat) : Host.Outcome State Fault Refusal := s.withCop z (.refused .conditionAbsent)

/-- A likely branch on a coprocessor condition (R291, D31). -/
def State.copLikely (s : State) (z : Nat) : Host.Outcome State Fault Refusal := s.withCop z (.refused .undescribedEncoding)

/-- `mfc1` (R442). -/
def execMfc1 (_rt _rd : Reg) (s : State) : Host.Outcome State Fault Refusal :=
  s.copOperation 1

/-- `cfc1` (R444). -/
def execCfc1 (_rt _rd : Reg) (s : State) : Host.Outcome State Fault Refusal :=
  s.copOperation 1

/-- `mtc1` (R443). -/
def execMtc1 (_rt _rd : Reg) (s : State) : Host.Outcome State Fault Refusal :=
  s.copOperation 1

/-- `ctc1` (R445). -/
def execCtc1 (_rt _rd : Reg) (s : State) : Host.Outcome State Fault Refusal :=
  s.copOperation 1

/-- `bc1f` (R447). -/
def execBc1f (_imm : BitVec 16) (s : State) : Host.Outcome State Fault Refusal :=
  s.copCondition 1

/-- `bc1t` (R447). -/
def execBc1t (_imm : BitVec 16) (s : State) : Host.Outcome State Fault Refusal :=
  s.copCondition 1

/-- `cop1` (R449). -/
def execCop1 (_cofun : BitVec 25) (s : State) : Host.Outcome State Fault Refusal :=
  s.copOperation 1

/-- `bc1fl` (R291). -/
def execBc1fl (_imm : BitVec 16) (s : State) : Host.Outcome State Fault Refusal :=
  s.copLikely 1

/-- `bc1tl` (R291). -/
def execBc1tl (_imm : BitVec 16) (s : State) : Host.Outcome State Fault Refusal :=
  s.copLikely 1

/-- `mfc2` (R442). -/
def execMfc2 (_rt _rd : Reg) (s : State) : Host.Outcome State Fault Refusal :=
  s.copOperation 2

/-- `cfc2` (R444). -/
def execCfc2 (_rt _rd : Reg) (s : State) : Host.Outcome State Fault Refusal :=
  s.copOperation 2

/-- `mtc2` (R443). -/
def execMtc2 (_rt _rd : Reg) (s : State) : Host.Outcome State Fault Refusal :=
  s.copOperation 2

/-- `ctc2` (R445). -/
def execCtc2 (_rt _rd : Reg) (s : State) : Host.Outcome State Fault Refusal :=
  s.copOperation 2

/-- `bc2f` (R447). -/
def execBc2f (_imm : BitVec 16) (s : State) : Host.Outcome State Fault Refusal :=
  s.copCondition 2

/-- `bc2t` (R447). -/
def execBc2t (_imm : BitVec 16) (s : State) : Host.Outcome State Fault Refusal :=
  s.copCondition 2

/-- `cop2` (R449). -/
def execCop2 (_cofun : BitVec 25) (s : State) : Host.Outcome State Fault Refusal :=
  s.copOperation 2

/-- `bc2fl` (R291). -/
def execBc2fl (_imm : BitVec 16) (s : State) : Host.Outcome State Fault Refusal :=
  s.copLikely 2

/-- `bc2tl` (R291). -/
def execBc2tl (_imm : BitVec 16) (s : State) : Host.Outcome State Fault Refusal :=
  s.copLikely 2

/-- `mfc3` (R442). -/
def execMfc3 (_rt _rd : Reg) (s : State) : Host.Outcome State Fault Refusal :=
  s.copOperation 3

/-- `cfc3` (R444). -/
def execCfc3 (_rt _rd : Reg) (s : State) : Host.Outcome State Fault Refusal :=
  s.copOperation 3

/-- `mtc3` (R443). -/
def execMtc3 (_rt _rd : Reg) (s : State) : Host.Outcome State Fault Refusal :=
  s.copOperation 3

/-- `ctc3` (R445). -/
def execCtc3 (_rt _rd : Reg) (s : State) : Host.Outcome State Fault Refusal :=
  s.copOperation 3

/-- `bc3f`: CpCond[3] is IRQHIGH, sampled when the branch executes (R447). -/
def execBc3f (imm : BitVec 16) (s : State) : Host.Outcome State Fault Refusal :=
  s.withCop 3 (s.branch (!s.dev.intr.irqHigh) imm)

/-- `bc3t`: CpCond[3] is IRQHIGH, sampled when the branch executes (R447). -/
def execBc3t (imm : BitVec 16) (s : State) : Host.Outcome State Fault Refusal :=
  s.withCop 3 (s.branch s.dev.intr.irqHigh imm)

/-- `cop3` (R449). -/
def execCop3 (_cofun : BitVec 25) (s : State) : Host.Outcome State Fault Refusal :=
  s.copOperation 3

/-- `bc3fl` (R291). -/
def execBc3fl (_imm : BitVec 16) (s : State) : Host.Outcome State Fault Refusal :=
  s.copLikely 3

/-- `bc3tl` (R291). -/
def execBc3tl (_imm : BitVec 16) (s : State) : Host.Outcome State Fault Refusal :=
  s.copLikely 3

end Sys2Proof.Machine
end

