-- ==== Sys2Proof/Machine/Cp0.lean ====
section
/-!
DEFINITION. Coprocessor 0: moves, TLB instructions, `rfe` (spec/40_cp0_tlb.md R320 to R328).
-/

namespace Sys2Proof.Machine

/-- Coprocessor 0 must be usable, else Coprocessor Unusable with CE = 0 (R320). -/
def State.withCop0 (s : State) (k : Host.Outcome State Fault Refusal) : Host.Outcome State Fault Refusal :=
  if s.cop0Usable then k else .next (s.raise (.cpu 0))

/-- Random at this use (R37, D6): 31 before any instruction has executed since reset, else one of 8 to 31. -/
def State.random (s : State) : BitVec 5 := if s.fresh then 31 else BitVec.ofNat 5 (8 + (s.free tagRandom).toNat % 24)

/-- Cause as read (R43, R321): IP[7:2] live. -/
def State.causeWord (s : State) : Word :=
  boolAt s.cp0.bd 31 ||| placed s.cp0.ce 28 ||| placed s.ip 8 ||| placed s.cp0.exc 2

/-- The value of a coprocessor 0 register; `none` for a number that no rule lists (R321, D3). In the window after an `mtc0` to it Status reads
new or old: R1082 does not name this use (DESIGN CHOICE, log entry 12). -/
def State.cp0Read (s : State) (rd : Reg) : Option Word :=
  match rd with
  | 0#5 => some (s.seenIndex false)
  | 1#5 => some (placed s.random 8)
  | 2#5 => some (s.seenEntryLo false)
  | 4#5 => some s.cp0.context
  | 8#5 => some s.cp0.badVAddr
  | 10#5 => some (s.seenEntryHi tagEntryHi false true)
  | 12#5 => some (s.seenStatus tagReadStatus 0xFFFFFFFF)
  | 13#5 => some s.causeWord
  | 14#5 => some s.cp0.epc
  | 15#5 => some Config.pridValue
  | _ => none

/-- The bits of Index, EntryLo, Context, EntryHi, Status that `mtc0` writes (R326). -/
def indexMask : Word := 0x00001F00
def entryLoMask : Word := 0xFFFFFF00
def contextMask : Word := 0xFFE00000
def entryHiMask : Word := 0xFFFFFFC0
def statusMask : Word := 0xF25FFF3F

/-- A write of a coprocessor 0 register: the registers after it and what it leaves for the hazards (R326, R1082). -/
def Cp0.write (c : Cp0) (rd : Reg) (v : Word) : Option (Cp0 × Trace) :=
  match rd with
  | 0#5 => some ({ c with index := maskedWrite indexMask c.index v }, .cp0 (.index c.index))
  | 1#5 => some (c, .plain)
  | 2#5 => some ({ c with entryLo := maskedWrite entryLoMask c.entryLo v }, .cp0 (.entryLo c.entryLo))
  | 4#5 => some ({ c with context := maskedWrite contextMask c.context v }, .plain)
  | 8#5 => some (c, .plain)
  | 10#5 => some ({ c with entryHi := maskedWrite entryHiMask c.entryHi v }, .cp0 (.entryHi c.entryHi))
  | 12#5 => some ({ c with status := maskedWrite statusMask c.status v }, .cp0 (.status c.status))
  | 13#5 => some ({ c with sw := v.extractLsb' 8 2 }, .plain)
  | 14#5 => some (c, .plain)
  | 15#5 => some (c, .plain)
  | _ => none

/-- `mfc0` (R321). -/
def execMfc0 (rt rd : Reg) (s : State) : Host.Outcome State Fault Refusal :=
  s.withCop0 <|
    match s.cp0Read rd with
    | some v => .next ((s.setReg rt v).retire (.loaded rt (s.reg rt) .other))
    | none => .refused .cp0Register

/-- `mtc0` (R326). -/
def execMtc0 (rt rd : Reg) (s : State) : Host.Outcome State Fault Refusal :=
  s.withCop0 <|
    match s.cp0.write rd (s.opReg rt) with
    | some (c, t) => .next (State.retire { s with cp0 := c } t)
    | none => .refused .cp0Register

/-- The entry that EntryHi and EntryLo describe (R324). -/
def tlbEntryOf (hi lo : Word) : TlbEntry :=
  { vpn := hi.extractLsb' 12 20, pid := hi.extractLsb' 6 6, pfn := lo.extractLsb' 12 20, n := bitOf lo 11, d := bitOf lo 10, v := bitOf lo 9,
    g := bitOf lo 8 }

/-- EntryHi and EntryLo of an entry (R323). -/
def TlbEntry.hi (e : TlbEntry) : Word := e.vpn ++ e.pid ++ (0#6)
def TlbEntry.lo (e : TlbEntry) : Word := placed e.pfn 12 ||| boolAt e.n 11 ||| boolAt e.d 10 ||| boolAt e.v 9 ||| boolAt e.g 8

/-- Write entry `i` from EntryHi and EntryLo (R324, R325). -/
def State.writeTlb (s : State) (i : BitVec 5) : State :=
  let e := tlbEntryOf (s.seenEntryHi tagEntryHi true false) (s.seenEntryLo true)
  State.retire { s with tlb := s.tlb.set i.toNat e i.isLt } (.cp0 (.tlb i (s.tlb[i.toNat]'i.isLt)))

/-- Index.Index. -/
def indexOf (index : Word) : BitVec 5 := index.extractLsb' 8 5

/-- Index after a probe (R322): P set and an open index without a match, else the matching entry. -/
def State.probe (s : State) : Word :=
  let hi := s.seenEntryHi tagEntryHi true false
  match s.pickHit tagMultiHit (tlbHits (s.seenTlb tagTlb) (hi.extractLsb' 12 20) (hi.extractLsb' 6 6)) with
  | some i => placed i 8
  | none => 0x80000000 ||| placed ((s.free tagProbe).extractLsb' 0 5) 8

/-- `tlbp` (R322). -/
def execTlbp (s : State) : Host.Outcome State Fault Refusal :=
  s.withCop0 <| .next (State.retire { s with cp0 := { s.cp0 with index := s.probe } } (.cp0 (.probe s.cp0.index)))

/-- `tlbr` (R323). -/
def execTlbr (s : State) : Host.Outcome State Fault Refusal :=
  s.withCop0 <|
    let i := indexOf (s.seenIndex true)
    let e := (s.seenTlb tagTlb)[i.toNat]'i.isLt
    .next (State.retire { s with cp0 := { s.cp0 with entryHi := e.hi, entryLo := e.lo } } (.cp0 (.tlbRead s.cp0.entryHi s.cp0.entryLo)))

/-- `tlbwi` (R324). -/
def execTlbwi (s : State) : Host.Outcome State Fault Refusal :=
  s.withCop0 <| .next (s.writeTlb (indexOf (s.seenIndex true)))

/-- `tlbwr` (R325). -/
def execTlbwr (s : State) : Host.Outcome State Fault Refusal :=
  s.withCop0 <| .next (s.writeTlb s.random)

/-- `rfe` (R327). -/
def execRfe (s : State) : Host.Outcome State Fault Refusal :=
  s.withCop0 <| .next (s.returnMode.retire .plain)

/-- `deret`: refused where coprocessor 0 is usable (R291, D31). -/
def execDeret (s : State) : Host.Outcome State Fault Refusal :=
  s.withCop0 (.refused .undescribedEncoding)

end Sys2Proof.Machine
end

