-- ==== Sys2Proof/Machine/Load.lean ====
section
/-!
DEFINITION. Loads (spec/44_load_store.md R422 to R426, R430, R431).
-/

namespace Sys2Proof.Machine

/-- A load of `size` bytes: `f` is the result, from the word read and its lane-independent address; the register it writes must not
be read by the next instruction (R1080). -/
def State.load (s : State) (rt : Reg) (va : Word) (size : Nat) (be : BitVec 4) (kind : LoadKind) (f : Word → Word) :
    Host.Outcome State Fault Refusal :=
  ((s.loadWord va size be).bind fun w t => .ok () ((t.setReg rt (f w)).retire (.loaded rt (s.reg rt) kind))).outcome

/-- The byte, the half-word at `va` in the word of its address (R102). -/
def State.byteAt (s : State) (va w : Word) : Byte := laneOf w (byteLane s.board.bigEndian va)
def State.halfAt (s : State) (va w : Word) : Half := halfOf w (halfLane s.board.bigEndian va)

/-- Byte enables of a byte, of a half-word at `va`. -/
def State.byteBe (s : State) (va : Word) : BitVec 4 := byteEnable (byteLane s.board.bigEndian va)
def State.halfBe (s : State) (va : Word) : BitVec 4 := halfEnable (halfLane s.board.bigEndian va)

/-- `lb` (R422). -/
def execLb (rs rt : Reg) (imm : BitVec 16) (s : State) : Host.Outcome State Fault Refusal :=
  let va := s.effAddr rs imm
  s.load rt va 1 (s.byteBe va) .other fun w => sext (s.byteAt va w)

/-- `lbu` (R423). -/
def execLbu (rs rt : Reg) (imm : BitVec 16) (s : State) : Host.Outcome State Fault Refusal :=
  let va := s.effAddr rs imm
  s.load rt va 1 (s.byteBe va) .other fun w => zext (s.byteAt va w)

/-- `lh` (R424). -/
def execLh (rs rt : Reg) (imm : BitVec 16) (s : State) : Host.Outcome State Fault Refusal :=
  let va := s.effAddr rs imm
  s.load rt va 2 (s.halfBe va) .other fun w => sext (s.halfAt va w)

/-- `lhu` (R425). -/
def execLhu (rs rt : Reg) (imm : BitVec 16) (s : State) : Host.Outcome State Fault Refusal :=
  let va := s.effAddr rs imm
  s.load rt va 2 (s.halfBe va) .other fun w => zext (s.halfAt va w)

/-- `lw` (R426). -/
def execLw (rs rt : Reg) (imm : BitVec 16) (s : State) : Host.Outcome State Fault Refusal :=
  let va := s.effAddr rs imm
  s.load rt va 4 0xF .other fun w => w

/-- `lwl` (R430). -/
def execLwl (rs rt : Reg) (imm : BitVec 16) (s : State) : Host.Outcome State Fault Refusal :=
  let va := s.effAddr rs imm
  let k := leftShift s.board.bigEndian va
  s.load rt va 1 (leftEnable k) .left fun w => mergeLeft w (s.mergeReg rt .left) k

/-- `lwr` (R431). -/
def execLwr (rs rt : Reg) (imm : BitVec 16) (s : State) : Host.Outcome State Fault Refusal :=
  let va := s.effAddr rs imm
  let k := rightShift s.board.bigEndian va
  s.load rt va 1 (rightEnable k) .right fun w => mergeRight w (s.mergeReg rt .right) k

end Sys2Proof.Machine
end

