-- ==== Sys2Proof/Machine/MulDiv.lean ====
section
/-!
DEFINITION. Multiply, multiply-add, divide and the moves of HI and LO (spec/42_muldiv.md R380 to R393).
-/

namespace Sys2Proof.Machine

/-- The exact product of two signed, of two unsigned operands, as 64 bits (R380). -/
def mulSigned (a b : Word) : BitVec 64 := BitVec.ofInt 64 (signed a * signed b)
def mulUnsigned (a b : Word) : BitVec 64 := BitVec.ofNat 64 (unsigned a * unsigned b)

/-- An instruction that writes HI or LO: the registers of an `mfhi` or `mflo` in the last two instructions become open values (R1081),
then `k` completes it. -/
def State.writeHiLo (s : State) (k : State → State) : Host.Outcome State Fault Refusal :=
  match s.spoil (s.recent.take 2) with
  | .ok s => .next ((k s).retire .plain)
  | .error r => .refused r

/-- HI : LO and the low word as the result in `rd` (R382, R390). -/
def State.writeAcc (s : State) (rd : Reg) (v : BitVec 64) : Host.Outcome State Fault Refusal :=
  s.writeHiLo fun s => (s.setAcc v).setReg rd (v.extractLsb' 0 32)

/-- Quotient in LO, remainder in HI; a division by zero leaves open values in both (R385, R386, U-DIVZERO). -/
def State.writeDiv (s : State) (zero : Bool) (q r : Word) : Host.Outcome State Fault Refusal :=
  s.writeHiLo fun t => { t with lo := if zero then s.free tagDivLo else q, hi := if zero then s.free tagDivHi else r }

/-- `mult` (R381, R382). -/
def execMult (rs rt rd : Reg) (s : State) : Host.Outcome State Fault Refusal :=
  s.writeAcc rd (mulSigned (s.opReg rs) (s.opReg rt))

/-- `multu` (R383, R384). -/
def execMultu (rs rt rd : Reg) (s : State) : Host.Outcome State Fault Refusal :=
  s.writeAcc rd (mulUnsigned (s.opReg rs) (s.opReg rt))

/-- `madd`: modulo 2^64 (R390, D4). -/
def execMadd (rs rt rd : Reg) (s : State) : Host.Outcome State Fault Refusal :=
  s.writeAcc rd (s.acc + mulSigned (s.opReg rs) (s.opReg rt))

/-- `maddu`: modulo 2^64 (R391, D4). -/
def execMaddu (rs rt rd : Reg) (s : State) : Host.Outcome State Fault Refusal :=
  s.writeAcc rd (s.acc + mulUnsigned (s.opReg rs) (s.opReg rt))

/-- Quotient and remainder of a signed division, rounded toward zero (R385); -2^31 by -1 gives 0x80000000 and 0 (U-DIVOVF). -/
def divSigned (a b : Word) : Word := BitVec.ofInt 32 ((signed a).tdiv (signed b))
def remSigned (a b : Word) : Word := BitVec.ofInt 32 ((signed a).tmod (signed b))

/-- Quotient and remainder of an unsigned division (R386). -/
def divUnsigned (a b : Word) : Word := BitVec.ofNat 32 (unsigned a / unsigned b)
def remUnsigned (a b : Word) : Word := BitVec.ofNat 32 (unsigned a % unsigned b)

/-- `div` (R385). -/
def execDiv (rs rt : Reg) (s : State) : Host.Outcome State Fault Refusal :=
  s.writeDiv (s.opReg rt = 0) (divSigned (s.opReg rs) (s.opReg rt)) (remSigned (s.opReg rs) (s.opReg rt))

/-- `divu` (R386). -/
def execDivu (rs rt : Reg) (s : State) : Host.Outcome State Fault Refusal :=
  s.writeDiv (s.opReg rt = 0) (divUnsigned (s.opReg rs) (s.opReg rt)) (remUnsigned (s.opReg rs) (s.opReg rt))

/-- What `mfhi` and `mflo` leave for the hazard of R1081. -/
def hiLoTrace (rd : Reg) : Trace := if rd = 0 then .plain else .hiLoRead rd false

/-- `mfhi` (R387). -/
def execMfhi (rd : Reg) (s : State) : Host.Outcome State Fault Refusal :=
  .next ((s.setReg rd s.hi).retire (hiLoTrace rd))

/-- `mflo` (R389). -/
def execMflo (rd : Reg) (s : State) : Host.Outcome State Fault Refusal :=
  .next ((s.setReg rd s.lo).retire (hiLoTrace rd))

/-- `mthi` (R388). -/
def execMthi (rs : Reg) (s : State) : Host.Outcome State Fault Refusal :=
  s.writeHiLo fun t => { t with hi := s.opReg rs }

/-- `mtlo` (R392). -/
def execMtlo (rs : Reg) (s : State) : Host.Outcome State Fault Refusal :=
  s.writeHiLo fun t => { t with lo := s.opReg rs }

end Sys2Proof.Machine
end

