-- ==== Sys2Proof/Machine/Shift.lean ====
section
/-!
DEFINITION. Shift instructions (spec/41_alu.md R360 to R365).
-/

namespace Sys2Proof.Machine

/-- `sll` (R360). -/
def execSll (rt rd : Reg) (shamt : BitVec 5) (s : State) : Host.Outcome State Fault Refusal :=
  s.alu rd (s.opReg rt <<< shamt.toNat)

/-- `srl` (R361). -/
def execSrl (rt rd : Reg) (shamt : BitVec 5) (s : State) : Host.Outcome State Fault Refusal :=
  s.alu rd (s.opReg rt >>> shamt.toNat)

/-- `sra` (R362). -/
def execSra (rt rd : Reg) (shamt : BitVec 5) (s : State) : Host.Outcome State Fault Refusal :=
  s.alu rd ((s.opReg rt).sshiftRight shamt.toNat)

/-- The shift amount of the variable shifts: the low five bits of a register (R284). -/
def State.shiftBy (s : State) (rs : Reg) : Nat := (s.opReg rs).toNat % 32

/-- `sllv` (R363). -/
def execSllv (rs rt rd : Reg) (s : State) : Host.Outcome State Fault Refusal :=
  s.alu rd (s.opReg rt <<< s.shiftBy rs)

/-- `srlv` (R364). -/
def execSrlv (rs rt rd : Reg) (s : State) : Host.Outcome State Fault Refusal :=
  s.alu rd (s.opReg rt >>> s.shiftBy rs)

/-- `srav` (R365). -/
def execSrav (rs rt rd : Reg) (s : State) : Host.Outcome State Fault Refusal :=
  s.alu rd ((s.opReg rt).sshiftRight (s.shiftBy rs))

end Sys2Proof.Machine
end

