-- ==== Sys2Proof/Machine/Store.lean ====
section
/-!
DEFINITION. Stores (spec/44_load_store.md R427 to R429, R432, R433).
-/

namespace Sys2Proof.Machine

/-- A store of the lanes `be` of `data`: it completes into the write buffer (R120). -/
def State.store (s : State) (va : Word) (size : Nat) (data : Word) (be : BitVec 4) : Host.Outcome State Fault Refusal :=
  ((s.storeWord va size data be).bind fun _ t => .ok () (t.retire .plain)).outcome

/-- `sb` (R427). -/
def execSb (rs rt : Reg) (imm : BitVec 16) (s : State) : Host.Outcome State Fault Refusal :=
  let va := s.effAddr rs imm
  let l := byteLane s.board.bigEndian va
  s.store va 1 ((s.opReg rt &&& 0xFF) <<< (8 * l)) (byteEnable l)

/-- `sh` (R428). -/
def execSh (rs rt : Reg) (imm : BitVec 16) (s : State) : Host.Outcome State Fault Refusal :=
  let va := s.effAddr rs imm
  let l := halfLane s.board.bigEndian va
  s.store va 2 ((s.opReg rt &&& 0xFFFF) <<< (8 * l)) (halfEnable l)

/-- `sw` (R429). -/
def execSw (rs rt : Reg) (imm : BitVec 16) (s : State) : Host.Outcome State Fault Refusal :=
  s.store (s.effAddr rs imm) 4 (s.opReg rt) 0xF

/-- `swl` (R432). -/
def execSwl (rs rt : Reg) (imm : BitVec 16) (s : State) : Host.Outcome State Fault Refusal :=
  let va := s.effAddr rs imm
  let k := leftShift s.board.bigEndian va
  s.store va 1 (s.opReg rt >>> (8 * k)) (leftEnable k)

/-- `swr` (R433). -/
def execSwr (rs rt : Reg) (imm : BitVec 16) (s : State) : Host.Outcome State Fault Refusal :=
  let va := s.effAddr rs imm
  let k := rightShift s.board.bigEndian va
  s.store va 1 (s.opReg rt <<< (8 * k)) (rightEnable k)

end Sys2Proof.Machine
end

