-- ==== Sys2Proof/Machine/System.lean ====
section
/-!
DEFINITION. System instructions (spec/45_system.md R440, R441, R448) and the encodings whose behaviour is in no source (R291, R435).
-/

namespace Sys2Proof.Machine

/-- An instruction whose encoding the spec refuses to execute or trap (R291, D31). -/
def State.undescribed (_ : State) : Host.Outcome State Fault Refusal := .refused .undescribedEncoding

/-- `syscall` takes the Syscall exception (R440). -/
def execSyscall (_code : BitVec 20) (s : State) : Host.Outcome State Fault Refusal :=
  .next (s.raise .sys)

/-- `break` takes the Breakpoint exception (R441). -/
def execBrk (_code : BitVec 20) (s : State) : Host.Outcome State Fault Refusal :=
  .next (s.raise .bp)

/-- `sync` waits until the write buffer is empty (R448). -/
def execSync (s : State) : Host.Outcome State Fault Refusal :=
  (s.drainAll.bind fun _ t => .ok () (t.retire .plain)).outcome

/-- `sdbbp` (R291, D31). -/
def execSdbbp (_code : BitVec 20) (s : State) : Host.Outcome State Fault Refusal :=
  s.undescribed

/-- `cache` (R291, D31). -/
def execCache (_rs _rt : Reg) (_imm : BitVec 16) (s : State) : Host.Outcome State Fault Refusal :=
  s.undescribed

/-- `lwc0` (R435, D31). -/
def execLwc0 (_rs _rt : Reg) (_imm : BitVec 16) (s : State) : Host.Outcome State Fault Refusal :=
  s.undescribed

/-- `lwc1` (R435, D31). -/
def execLwc1 (_rs _rt : Reg) (_imm : BitVec 16) (s : State) : Host.Outcome State Fault Refusal :=
  s.undescribed

/-- `lwc2` (R435, D31). -/
def execLwc2 (_rs _rt : Reg) (_imm : BitVec 16) (s : State) : Host.Outcome State Fault Refusal :=
  s.undescribed

/-- `lwc3` (R435, D31). -/
def execLwc3 (_rs _rt : Reg) (_imm : BitVec 16) (s : State) : Host.Outcome State Fault Refusal :=
  s.undescribed

/-- `swc0` (R435, D31). -/
def execSwc0 (_rs _rt : Reg) (_imm : BitVec 16) (s : State) : Host.Outcome State Fault Refusal :=
  s.undescribed

/-- `swc1` (R435, D31). -/
def execSwc1 (_rs _rt : Reg) (_imm : BitVec 16) (s : State) : Host.Outcome State Fault Refusal :=
  s.undescribed

/-- `swc2` (R435, D31). -/
def execSwc2 (_rs _rt : Reg) (_imm : BitVec 16) (s : State) : Host.Outcome State Fault Refusal :=
  s.undescribed

/-- `swc3` (R435, D31). -/
def execSwc3 (_rs _rt : Reg) (_imm : BitVec 16) (s : State) : Host.Outcome State Fault Refusal :=
  s.undescribed

end Sys2Proof.Machine
end

