-- ==== Sys2Proof/Machine/Events.lean ====
section
/-!
DEFINITION. The agents that are not the core (spec/10_state.md R30, D20): what each event of the agenda does. The main clock domain
moves only while ENSYSCLK is asserted; the pins and the 32 kHz domain always do (R489, R797).
-/

namespace Sys2Proof.Machine

/-- One clock of the RTC and what its 8 ms reference drives (R705, R802, R920, R921). -/
def Dev.rtcTick (d : Dev) : Dev :=
  let tick := d.timer.refTick
  let d := d.rtcClock
  if tick then d.stopTimer.carrierClock else d

/-- One edge of the 32.768 kHz crystal: refresh (R240), which a bus that is granted away interrupts (R241), and with a rising one the RTC
(DESIGN CHOICE, log entry 47: R921 counts each C32K clock and names no edge) unless ENTESTCLK gives it another clock (R926). -/
def Dev.crystalEdge (d : Dev) : Dev :=
  let rising := !d.timer.c32k
  let d := { d with timer := { d.timer with c32k := rising }, biu := if d.granted then d.biu else d.biu.refresh rising }
  if rising && !bitOf d.timer.ctl 1 then d.rtcTick else d

/-- One TIMERCLK (R543, R923, R926). -/
def Dev.timerClock (d : Dev) : Dev :=
  if enTimerClk d.clk then
    let d := d.periodicClock
    if bitOf d.timer.ctl 1 then d.rtcTick else d
  else d

/-- One CLK: the watch dog of a transaction that waits (R242), the time since the last access of the SDRAM (R237), the VIDDONE delay
(R1003). -/
def Dev.sysClock (d : Dev) : Dev := Dev.vidDoneClock { d with biu := d.biu.busClock (d.biu.held.isSome && d.waitsFor d.biu.heeded) }

/-- One edge of the internal SIB Master Clock while SIBMCLK is an output (R534, R870). -/
def Dev.sibMclkEdge (d : Dev) : Dev :=
  if bitOf d.clk 13 && enSibClk d.clk then
    let rising := !d.sib.mclk
    let d := { d with sib := { d.sib with mclk := rising } }
    if rising then d.sibClock d.sibDin else d
  else d

/-- One edge of the internal CHICLK while it is an output (R534, R571), with CHIMCLKSEL = 1 also while ENSIBMCLK = 0 (DESIGN CHOICE, log entry
51). -/
def Dev.chiClkEdge (d : Dev) (free : Word) : Dev :=
  if bitOf d.clk 20 && enChiClk d.clk then
    let rising := !d.chi.clk
    Dev.chiClock { d with chi := { d.chi with clk := rising } } rising (d.pinIn 31) (d.pinIn 28) free
  else d

/-- An input pin changes (R682, R754, R793 to R804); what a level that only an edge flip-flop looks at does follows when the modules
settle (R688, R706, R746, R858). -/
def Dev.setPin (d : Dev) (p : Pin) (level : Bool) : Dev :=
  match p with
  | .pwrok => d.setPwrok level
  | .onbutn => d.setOnbutn level
  | .pwrint => d.setPwrint level
  | .vcc3 => { d with power := d.power.setVcc3 level }
  | .sibirq => { d with sib := { d.sib with irqPin := level } }
  | .sibdin => { d with sib := { d.sib with din := level } }
  | .mbusint => d.setMbusInt level
  | .mbusclk => { d with mbus := { d.mbus with clkPin := level } }
  | .mbusdata => { d with mbus := { d.mbus with dataPin := level } }
  | .cardet => { d with ir := { d.ir with carDetPin := level } }
  | .irin => { d with ir := { d.ir with irIn := level } }
  | .io i => { d with io := d.io.setIo i.val level }
  | .mio j => { d with io := d.io.setMio j.toNat level }

/-- What Power On Reset makes of the modules (R794, R1060): the levels that the outside world drives, those seen last, and the crystal
stay. -/
def Dev.powerOnReset (d : Dev) (testAiu : Bool) : Dev :=
  let r := Dev.reset testAiu
  { r with
    power := d.power.ponReset
    io := { r.io with ioPin := d.io.ioPin, ioDeb := d.io.ioDeb, mioPin := d.io.mioPin, ioSeen := d.io.ioSeen, mioSeen := d.io.mioSeen }
    ir := { r.ir with carDetPin := d.ir.carDetPin, carDet := d.ir.carDet, irIn := d.ir.irIn }
    mbus := { r.mbus with pin := d.mbus.pin, clkPin := d.mbus.clkPin, dataPin := d.mbus.dataPin, clkSeen := d.mbus.clkSeen,
                          dataSeen := d.mbus.dataSeen }
    sib := { r.sib with din := d.sib.din, irqPin := d.sib.irqPin, irq := d.sib.irq }
    timer := { r.timer with c32k := d.timer.c32k } }

/-- The core at its reset values (R70, R1061), everything outside it as before: a pending NMI is dropped, the write buffer is empty, a bus
transaction of the core is abandoned, and the caches hold nothing (R53, log entry 16). -/
def State.coreReset (s : State) : State :=
  let b := s.dev.biu
  let dma : Bool := b.held = some .dma
  { s with
    gpr := State.reset.gpr, hi := 0, lo := 0, pc := State.reset.pc, npc := State.reset.npc, ds := false, cp0 := Cp0.reset, tlb := tlbReset,
    wb := [], recent := [], icache := icacheReset, dcache := dcacheReset, pending := .none, fresh := true
    dev := { s.dev with biu := { b with held := if dma then b.held else none, heeded := if dma then b.heeded else none }
                        intr := { s.dev.intr with nmi := false } } }

/-- A result that changes only the modules. -/
def State.devEvent (s : State) (f : Dev → Dev) : Res Unit := .ok () (s.mapDev f)

/-- An event of the main clock domain. -/
def State.clocked (s : State) (f : Dev → Dev) : Res Unit := if s.dev.power.ensys then s.devEvent f else .ok () s

/-- What an event does. -/
def State.event (s : State) (e : Event) : Res Unit :=
  match e with
  | .core | .coreBus => .ok () s
  | .drain => if s.dev.power.ensys then s.drainOne else .ok () s
  | .dmaGrant => if s.dev.power.ensys then s.dmaGrant else .ok () s
  | .c32k => s.devEvent (·.crystalEdge)
  | .timerClk => s.clocked (·.timerClock)
  | .irClk => s.clocked (·.irClock (s.free tagIrLate))
  | .sysClk => s.clocked (·.sysClock)
  | .vidClk => s.clocked (·.videoClock)
  | .uartClk b => s.clocked fun d => d.uartClock b (d.rxPin b)
  | .spiClk => s.clocked fun d => d.spiClock (d.pinIn 13)
  | .mbusClk => s.clocked (·.mbusClock)
  | .sibMclk => s.clocked (·.sibMclkEdge)
  | .chiClk => s.clocked (·.chiClkEdge (s.free tagChi))
  | .sibClip l r => s.clocked (·.sibClip l r)
  | .coreStops => s.devEvent fun d => { d with power := d.power.coreStops }
  | .enSysclk => s.devEvent (·.clockStarts)
  | .cpuReset => .ok () (s.coreReset.mapDev id)
  | .powerOnReset => .ok () (State.mapDev (State.coreReset { s with dev := s.dev.powerOnReset s.board.testAiu }) id)
  | .masterWrite pa data be => .ok () (s.masterWrite pa data be)
  | .setPin p level => s.devEvent (·.setPin p level)
  | .debounceIo i => s.devEvent (·.debounceIo i.val)
  | .debounceOnbutn => s.devEvent (·.debounceOnbutn)

end Sys2Proof.Machine
end

