-- ==== Sys2Proof/Machine/Run.lean ====
section
/-!
DEFINITION. One step of the core (spec/43_branch_jump.md R400, spec/60_exceptions.md R463) and one step of the machine.
-/

namespace Sys2Proof.Machine

/-- The check that comes before everything else on a coprocessor word that is no instruction of the table (R294, R328, R449, R463). -/
def State.copWord (s : State) (w : Word) (k : Host.Outcome State Fault Refusal) : Host.Outcome State Fault Refusal :=
  match opOf w with
  | 0x10#6 => s.withCop0 k
  | 0x11#6 => s.withCop 1 k
  | 0x12#6 => s.withCop 2 k
  | 0x13#6 => s.withCop 3 k
  | _ => k

/-- A word that is no instruction of the table: Reserved Instruction (R290), or refused (R292, R449). -/
def State.trapWord (s : State) (w : Word) (d : Decoded) : Host.Outcome State Fault Refusal :=
  match d with
  | .reserved => s.copWord w (.next (s.raise .ri))
  | .unusedField => s.copWord w (.refused .unusedField)
  | .copUndescribed => s.copWord w (.refused .coprocessorAbsent)
  | .instr i => exec i s

/-- Execute a fetched word. Where a bus access keeps the instruction waiting, the next step goes on with the word. -/
def State.execWord (s : State) (w : Word) : Host.Outcome State Fault Refusal :=
  let s := { s with pending := .exec w }
  match decode w with
  | .instr i => exec i (s.noteUse i)
  | d => s.trapWord w d

/-- Sequential execution from the instruction at `pc` to that at `next` runs off the top of the address space (R32, U-PCWRAP): past the last
word, past a nullified delay slot at it, or after the delay slot of a branch that was not taken. -/
def wraps (pc : Word) (ds : Bool) (recent : List Trace) (next : Word) : Bool :=
  if ds then pc = 0xFFFFFFFC && next = 0 && recent.head? = some .untaken
  else (pc = 0xFFFFFFFC && next.toNat < 8) || (pc = 0xFFFFFFF8 && next = 0)

/-- Execution must not run off the top of the address space: `s` before the step, its outcome. -/
def State.checkWrap (s : State) (o : Host.Outcome State Fault Refusal) : Host.Outcome State Fault Refusal :=
  match o with
  | .next t => if wraps s.pc s.ds s.recent t.pc then .refused .pcWrap else .next t
  | o => o

/-- Execute the instruction at `pc`, fetching it unless it has been. -/
def State.fetchExec (s : State) : Host.Outcome State Fault Refusal :=
  match s.pending with
  | .exec w => s.checkWrap (s.execWord w)
  | _ =>
    match s.fetch with
    | .ok w t => s.checkWrap (t.execWord w)
    | .exc e t => .next (t.raise e)
    | .wait t => .next { t with pending := .fetch }
    | .refused r => .refused r

/-- One step of the core: an NMI, an interrupt, or the instruction at `pc` (R463); in the middle of an instruction it goes on with that. A core
whose clock does not run waits (R489), as one does while a DMA transaction is in progress (R30, R524). -/
def State.coreStep (s : State) : Host.Outcome State Fault Refusal :=
  if !s.dev.coreRuns then .next s
  else if s.pending != .none then s.fetchExec
  else if s.dev.intr.nmi then .next s.takeNmi
  else if s.interruptPending then .next (s.raise .int)
  else s.fetchExec

/-- The Bus Interface Unit with another turn of the core. -/
def State.withTurn (s : State) (t : BusTurn) : State := { s with dev := { s.dev with biu := { s.dev.biu with turn := t } } }

/-- One step of the core that gives the bus up after its next transaction, so that a DMA transaction can come before the one after that (R128):
the instruction then waits, and a later step goes on with it. -/
def State.coreTurn (s : State) : Host.Outcome State Fault Refusal :=
  match (s.withTurn .one).coreStep with
  | .next t => .next (t.withTurn .whole)
  | o => o

/-- The outcome of an event; the draw counter moves on. -/
def Res.eventOutcome (r : Res Unit) : Host.Outcome State Fault Refusal :=
  match r with
  | .ok _ s => .next { s with draws := s.draws + 1 }
  | .exc _ _ => .refused .dmaTarget
  | .wait s => .next { s with draws := s.draws + 1 }
  | .refused r => .refused r

/-- One step of the machine: the next event of the agenda, or the core. -/
def State.stepOf (s : State) : Host.Outcome State Fault Refusal :=
  match s.agenda with
  | [] => s.coreStep
  | .core :: es => State.coreStep { s with agenda := es }
  | .coreBus :: es => State.coreTurn { s with agenda := es }
  | e :: es => (State.event { s with agenda := es } e).eventOutcome

/-- What the fetch at `pc` reads: its physical address, whether it is cached, the lowest cell of its word. -/
def State.fetchCell (s : State) : Option (Word × Bool × Nat) :=
  match s.translate .fetch s.pc with
  | .ok p _ =>
    match s.target p.1 with
    | .ok (.cells _ key _) => some (p.1, p.2, key)
    | _ => none
  | _ => none

/-- The instruction word `w` at the place that the next fetch reads, which no cache line hides; the core starts an instruction, and with an
agenda it moves next. -/
def State.placeWord (s : State) (w : Word) : State :=
  match s.fetchCell with
  | some (pa, cached, key) =>
    { s with
      mem := s.mem.writeLanes s.board.bigEndian key w 0xF
      icache := if cached then iDrop s.icache pa else s.icache
      pending := .none
      agenda := match s.agenda with
        | [] => []
        | a => .core :: a }
  | none => s

end Sys2Proof.Machine
end

