-- ==== Sys2Proof/Machine/Step.lean ====
section
/-!
DEFINITION. The step function of the machine, and the state whose next fetch reads a given instruction word.
-/

namespace Sys2Proof.Machine

/-- One step (R30, R400). -/
def step (s : State) : Host.Outcome State Fault Refusal := s.stepOf

/-- `s` with the instruction whose bits are `w` where the next fetch reads it. Every instruction is one 32-bit word (R280). -/
def State.withFetchWord (s : State) (nbits w : Nat) : State := s.placeWord (BitVec.ofNat 32 (w % 2 ^ nbits))

end Sys2Proof.Machine
end

