-- ==== Sys2Proof/Safety.lean ====
section
/-!
DEFINITION. The words that the statements use: the invariant that every step keeps, and the frames of the instructions.
-/

namespace Sys2Proof.Machine

/-! ## The invariant -/

/-- The registers of coprocessor 0 whose reserved bits read as 0 (R36 to R42): no write and no exception sets one. -/
structure Cp0.Inv (c : Cp0) : Prop where
  /-- Only P and bits 12:8 of Index (R36). -/
  index : c.index &&& 0x7FFFE0FF = 0
  /-- Bits 7:0 of EntryLo (R38). -/
  entryLo : c.entryLo &&& 0x000000FF = 0
  /-- Bits 1:0 of Context (R40). -/
  context : c.context &&& 0x00000003 = 0
  /-- Bits 5:0 of EntryHi (R39). -/
  entryHi : c.entryHi &&& 0x0000003F = 0
  /-- Bits 27:26, 24:23, TS, 7:6 of Status (R42). -/
  status : c.status &&& 0x0DA000C0 = 0

/-- The invariant of the machine: the memory keeps its canonical form, the write buffer holds at most its four entries (R54), the
reserved bits of coprocessor 0 read 0. -/
structure State.Inv (s : State) : Prop where
  mem : s.mem.wf = true
  wb : s.wb.length ≤ 4
  cp0 : s.cp0.Inv

/-! ## Frames -/

/-- Everything but the general registers, HI, LO, the program counter, the instruction in progress and what the hazards look back on is as before: coprocessor 0, the
TLB, the write buffer, every byte of memory, the caches, the modules, the board, the agenda. -/
structure Keeps (s t : State) : Prop where
  cp0 : t.cp0 = s.cp0
  tlb : t.tlb = s.tlb
  wb : t.wb = s.wb
  mem : ∀ a, t.mem.read a = s.mem.read a
  icache : t.icache = s.icache
  dcache : t.dcache = s.dcache
  dev : t.dev = s.dev
  board : t.board = s.board
  agenda : t.agenda = s.agenda

/-- HI and LO are as before. -/
def KeepsAcc (s t : State) : Prop := t.hi = s.hi ∧ t.lo = s.lo

/-- Every general register is as before. -/
def KeepsRegs (s t : State) : Prop := ∀ r, t.reg r = s.reg r

/-- The general register `rd` is written with `v` and no other; a write of register 0 is discarded (R31). -/
def WritesReg (s t : State) (rd : Reg) (v : Word) : Prop := ∀ r, t.reg r = if r = rd ∧ rd ≠ 0 then v else s.reg r

/-- Execution goes on with the next instruction (R400). -/
def Advances (s t : State) : Prop := t.pc = s.npc ∧ t.npc = s.npc + 4 ∧ t.ds = false ∧ t.pending = .none

/-- The delay slot follows, then `target` (R400). -/
def Delays (s t : State) (target : Word) : Prop := t.pc = s.npc ∧ t.npc = target ∧ t.ds = true ∧ t.pending = .none

/-- The delay slot is nullified (R414). -/
def Nullifies (s t : State) : Prop := t.pc = s.npc + 4 ∧ t.npc = s.npc + 8 ∧ t.ds = false ∧ t.pending = .none

/-- The instruction completes, writes `v` to the general register `rd`, and changes nothing else. -/
def WritesOnly (i : Instr) (s : State) (rd : Reg) (v : Word) : Prop :=
  ∃ t, exec i s = .next t ∧ WritesReg s t rd v ∧ KeepsAcc s t ∧ Keeps s t ∧ Advances s t

/-- The instruction transfers control without writing a register. -/
def Transfers (i : Instr) (s : State) (target : Word) : Prop :=
  ∃ t, exec i s = .next t ∧ KeepsRegs s t ∧ KeepsAcc s t ∧ Keeps s t ∧ Delays s t target

/-- The instruction transfers control and writes `v` to the general register `rd`. -/
def TransfersLinking (i : Instr) (s : State) (rd : Reg) (v target : Word) : Prop :=
  ∃ t, exec i s = .next t ∧ WritesReg s t rd v ∧ KeepsAcc s t ∧ Keeps s t ∧ Delays s t target

/-- The instruction continues after its delay slot without executing it. -/
def Skips (i : Instr) (s : State) : Prop :=
  ∃ t, exec i s = .next t ∧ KeepsRegs s t ∧ KeepsAcc s t ∧ Keeps s t ∧ Nullifies s t

/-- As `Skips`, with `v` written to the general register `rd`. -/
def SkipsLinking (i : Instr) (s : State) (rd : Reg) (v : Word) : Prop :=
  ∃ t, exec i s = .next t ∧ WritesReg s t rd v ∧ KeepsAcc s t ∧ Keeps s t ∧ Nullifies s t

/-- The register that a trace of `mfhi` or `mflo` names, and whether its value has been used. -/
def Trace.hiLo : Trace → Option (Reg × Bool)
  | .hiLoRead rd used => some (rd, used)
  | _ => none

/-- No `mfhi` or `mflo` among the last two instructions (R1081). -/
def HiLoSettled (s : State) : Prop := (s.recent.take 2).filterMap Trace.hiLo = []

/-! ## Memory -/

/-- Byte `n` of a register, byte 0 the least significant. -/
def byteOf (w : Word) (n : Nat) : Byte := w.extractLsb' (8 * n) 8

/-- The byte at offset `k` of the word `w` in memory (R102). -/
def wordByte (bigEndian : Bool) (w : Word) (k : Nat) : Byte := byteOf w (if bigEndian then 3 - k else k)

/-- The byte that a write buffer entry stores at offset `j` of its word, if it stores one there (R54, R102). -/
def WbEntry.byteAt (e : WbEntry) (bigEndian : Bool) (j : Nat) : Option Byte :=
  if e.be.getLsbD (if bigEndian then 3 - j else j) then some (wordByte bigEndian e.data j) else none

/-- A data read at `va`, which needs the lanes `be` of its word, gives the word `w` and leaves the machine as `u`: it translates, and its place
answers. `Obligations.LoadedWords` says where that is so, and what `w` and `u` are. -/
def ReadsWord (s : State) (va : Word) (be : BitVec 4) (w : Word) (u : State) : Prop :=
  ∃ pa cached, s.translate .load va = .ok (pa, cached) s ∧ s.dataRead pa cached be = .ok w u

/-- The load completes: it writes `v` to `rt`; beside that only what the data read did has happened, and that changed no register, nothing
of coprocessor 0 and no TLB entry. -/
def Loads (i : Instr) (s u : State) (rt : Reg) (v : Word) : Prop :=
  ∃ t, exec i s = .next t ∧ WritesReg s t rt v ∧ KeepsAcc s t ∧ Keeps u t ∧ t.cp0 = s.cp0 ∧ t.tlb = s.tlb ∧ t.board = s.board ∧
    t.agenda = s.agenda ∧ Advances s t

/-- A store of the lanes `be` at `va` may enter the write buffer: it translates to `pa`, where those lanes may be stored. -/
structure StoresCells (s : State) (va pa : Word) (cached : Bool) (be : BitVec 4) : Prop where
  translates : s.translate .store va = .ok (pa, cached) s
  admitted : s.registerCheck pa cached be = none

/-- The store completes: one entry for the word of `pa`, which stores at offset `j` of that word the byte `f j`, goes behind those of the
write buffer of `u`, and reaches the data cache; beside that everything is as in `u`. -/
def Buffers (i : Instr) (s u : State) (pa : Word) (cached : Bool) (f : Nat → Option Byte) : Prop :=
  ∃ t e, exec i s = .next t ∧ t.wb = u.wb ++ [e] ∧ e.pa = wordAddr pa ∧ (∀ j < 4, e.byteAt s.board.bigEndian j = f j) ∧
    t.dcache = (u.cacheStore e.pa e.data e.be cached).dcache ∧ KeepsRegs s t ∧ KeepsAcc s t ∧
    Keeps u { t with wb := u.wb, dcache := u.dcache } ∧ t.cp0 = s.cp0 ∧ t.tlb = s.tlb ∧ Advances s t

/-- The five stores into the write buffer of `u`: which byte of the register goes to which byte of the word, in both byte orders (R102, R427
to R429, R432, R433). -/
def StoreBytes (s u : State) (rs rt : Reg) (imm : BitVec 16) (pa : Word) (cached : Bool) : Prop :=
  let va := s.effAddr rs imm
  let x := s.opReg rt
  let o := va.toNat % 4
  let big := s.board.bigEndian
  (StoresCells s va pa cached (byteEnable (byteLane big va)) →
    Buffers (.sb rs rt imm) s u pa cached fun j => if j = o then some (byteOf x 0) else none) ∧
  (StoresCells s va pa cached (halfEnable (halfLane big va)) → va.toNat % 2 = 0 →
    Buffers (.sh rs rt imm) s u pa cached fun j =>
      if j = o then some (byteOf x (if big then 1 else 0)) else if j = o + 1 then some (byteOf x (if big then 0 else 1)) else none) ∧
  (StoresCells s va pa cached 0xF → va.toNat % 4 = 0 →
    Buffers (.sw rs rt imm) s u pa cached fun j => some (byteOf x (if big then 3 - j else j))) ∧
  (StoresCells s va pa cached (leftEnable (leftShift big va)) →
    Buffers (.swl rs rt imm) s u pa cached fun j =>
      if big then (if o ≤ j then some (byteOf x (3 - (j - o))) else none)
      else (if j ≤ o then some (byteOf x (3 - (o - j))) else none)) ∧
  (StoresCells s va pa cached (rightEnable (rightShift big va)) →
    Buffers (.swr rs rt imm) s u pa cached fun j =>
      if big then (if j ≤ o then some (byteOf x (o - j)) else none)
      else (if o ≤ j then some (byteOf x (j - o)) else none))

/-! ## Coprocessor 0 -/

/-- The instruction completes and changes coprocessor 0 to `c` and nothing else. -/
def ChangesCp0 (i : Instr) (s : State) (c : Cp0) : Prop :=
  ∃ t, exec i s = .next t ∧ t.cp0 = c ∧ KeepsRegs s t ∧ KeepsAcc s t ∧ Keeps s { t with cp0 := s.cp0 } ∧ Advances s t

/-- The instruction completes and changes TLB entry `k` to `e` and nothing else. -/
def ChangesTlb (i : Instr) (s : State) (k : BitVec 5) (e : TlbEntry) : Prop :=
  ∃ t, exec i s = .next t ∧ (∀ j : BitVec 5, t.tlb[j.toNat]'j.isLt = if j = k then e else s.tlb[j.toNat]'j.isLt) ∧ KeepsRegs s t ∧
    KeepsAcc s t ∧ Keeps s { t with tlb := s.tlb } ∧ Advances s t

/-- None of the last instructions left a load or a coprocessor 0 write that the next ones may miss (R1080, R1082). -/
def NoHazards (s : State) : Prop := ∀ t ∈ s.recent, (∀ rt old kind, t ≠ .loaded rt old kind) ∧ ∀ w, t ≠ .cp0 w

/-- No write of Status is in the window in which its old value may still be seen (R1082). -/
def StatusSettled (s : State) : Prop := ∀ old, Trace.cp0 (.status old) ∉ s.window

end Sys2Proof.Machine
end

