-- ==== Sys2Proof/Certificates/Slice0/Obligations.lean ====
section
/-!
DEFINITION. The statements for the provers. In all of them `s.opReg r` is the general register `r` as an operand: the register itself
but in the instruction after a load of it (`Obligations.OperandValues`, log entry 10).
-/

open Sys2Proof Sys2Proof.Machine

/-! ## Encoding and stepping -/

/-- Decoding the word of any instruction gives the instruction back, with every operand at every value its field holds (R282 to R289,
R295). -/
def Obligations.DecodeEncode : Prop := ∀ i : Instr, decode (encode i) = .instr i

/-- A word that decodes to an instruction is the only word that does: encoding the instruction gives the word. -/
def Obligations.EncodeDecode : Prop := ∀ (w : Word) (i : Instr), decode w = .instr i → encode i = w

/-- Example words of the rules decode to the instructions they stand for. -/
def Obligations.SampleWordsDecode : Prop :=
  decode 0x00221820 = .instr (.add 1 2 3) ∧ decode 0x2422FFFF = .instr (.addiu 1 2 0xFFFF) ∧
  decode 0x00021900 = .instr (.sll 2 3 4) ∧ decode 0x0022001A = .instr (.div 1 2) ∧ decode 0x70221801 = .instr (.maddu 1 2 3) ∧
  decode 0x0040F809 = .instr (.jalr 2 31) ∧ decode 0x1422FFFE = .instr (.bne 1 2 0xFFFE) ∧ decode 0x04330003 = .instr (.bgezall 1 3) ∧
  decode 0x8C220008 = .instr (.lw 1 2 8) ∧ decode 0xA8220003 = .instr (.swl 1 2 3) ∧ decode 0x0007000D = .instr (.brk 0x1C00) ∧
  decode 0x401A7000 = .instr (.mfc0 26 14) ∧ decode 0x42000008 = .instr .tlbp ∧ decode 0x4D010003 = .instr (.bc3t 3)

/-- The words that are no instruction of the table. The reserved encodings raise Reserved Instruction and do nothing else (R290): the
reserved major opcodes, the reserved functions of SPECIAL and of the multiply-add group, the reserved sub-opcodes of REGIMM; those of
coprocessor 0 where it is usable (R328). An instruction with a non-zero unused field stops (R292). On a coprocessor word the usability check
comes first (R294); that it does so also before an unused field is looked at, so that the word raises Coprocessor Unusable where the
coprocessor is not usable, is the model's deduction (log entry 31), since the spec leaves that order open. With CUz = 1 a word of
coprocessor z that no instruction takes stops (R449). -/
def Obligations.ReservedEncodings : Prop :=
  ∀ (s : State) (w : Word),
    let stops (r : Refusal) : Prop := s.execWord w = .refused r
    let raises (e : Exc) : Prop := s.execWord w = .next (s.raise e)
    (opOf w ∈ [0x18#6, 0x19#6, 0x1A#6, 0x1B#6, 0x1D#6, 0x1E#6, 0x1F#6, 0x27#6, 0x2C#6, 0x2D#6, 0x34#6, 0x35#6, 0x36#6, 0x37#6, 0x3C#6,
        0x3D#6, 0x3E#6, 0x3F#6] ∨
      (opOf w = 0 ∧ functOf w ∈ [0x01#6, 0x05#6, 0x0A#6, 0x0B#6, 0x14#6, 0x15#6, 0x16#6, 0x17#6, 0x1C#6, 0x1D#6, 0x1E#6, 0x1F#6, 0x28#6,
        0x29#6]) ∨
      (opOf w = 0 ∧ 0x2C ≤ (functOf w).toNat) ∨ (opOf w = 0x1C ∧ 2 ≤ (functOf w).toNat) ∨
      (opOf w = 1 ∧ 4 ≤ (rtOf w).toNat % 16) → raises .ri) ∧
    ((opOf w = 0 ∧ functOf w ∈ [0x04#6, 0x06#6, 0x07#6, 0x18#6, 0x19#6, 0x20#6, 0x21#6, 0x22#6, 0x23#6, 0x24#6, 0x25#6, 0x26#6, 0x27#6,
        0x2A#6, 0x2B#6] ∧ shamtOf w ≠ 0) ∨
      (opOf w = 0 ∧ functOf w ∈ [0x00#6, 0x02#6, 0x03#6] ∧ rsOf w ≠ 0) ∨
      (opOf w = 0 ∧ functOf w ∈ [0x08#6, 0x11#6, 0x13#6] ∧ (rtOf w ≠ 0 ∨ rdOf w ≠ 0 ∨ shamtOf w ≠ 0)) ∨
      (opOf w = 0 ∧ functOf w = 0x09 ∧ (rtOf w ≠ 0 ∨ shamtOf w ≠ 0)) ∨ (opOf w = 0 ∧ functOf w = 0x0F ∧ codeOf w ≠ 0) ∨
      (opOf w = 0 ∧ functOf w ∈ [0x10#6, 0x12#6] ∧ (rsOf w ≠ 0 ∨ rtOf w ≠ 0 ∨ shamtOf w ≠ 0)) ∨
      (opOf w = 0 ∧ functOf w ∈ [0x1A#6, 0x1B#6] ∧ (rdOf w ≠ 0 ∨ shamtOf w ≠ 0)) ∨
      (opOf w = 0x1C ∧ (functOf w).toNat < 2 ∧ shamtOf w ≠ 0) ∨ (opOf w = 0x0F ∧ rsOf w ≠ 0) ∨
      (opOf w ∈ [0x06#6, 0x07#6, 0x16#6, 0x17#6] ∧ rtOf w ≠ 0) → stops .unusedField) ∧
    (opOf w = 0x10 →
      let reserved : Prop :=
        if w.getLsbD 25 then functOf w ∉ [0x01#6, 0x02#6, 0x06#6, 0x08#6, 0x10#6, 0x1F#6] else rsOf w ≠ 0 ∧ rsOf w ≠ 4
      let unused : Prop := if w.getLsbD 25 then codeOf w ≠ 0x80000 else shamtOf w ≠ 0 ∨ functOf w ≠ 0
      (s.cop0Usable = true → (reserved → raises .ri) ∧ (¬ reserved → unused → stops .unusedField)) ∧
      (s.cop0Usable = false → reserved ∨ unused → raises (.cpu 0))) ∧
    (∀ z ∈ [1, 2, 3], opOf w = BitVec.ofNat 6 (0x10 + z) → w.getLsbD 25 = false →
      let other : Prop := rsOf w ∉ [0x00#5, 0x02#5, 0x04#5, 0x06#5, 0x08#5] ∨ (rsOf w = 0x08 ∧ 3 < (rtOf w).toNat)
      let unused : Prop := rsOf w ∈ [0x00#5, 0x02#5, 0x04#5, 0x06#5] ∧ (shamtOf w ≠ 0 ∨ functOf w ≠ 0)
      (s.copUsable z = true → (other → stops .coprocessorAbsent) ∧ (unused → stops .unusedField)) ∧
      (s.copUsable z = false → other ∨ unused → raises (.cpu (BitVec.ofNat 2 z))))

/-- When the core's turn has come, and the word that is in progress, or that the fetch gives when neither an NMI nor an interrupt is taken,
decodes to an instruction, the step is that instruction's meaning, in the state in which the traces of `mfhi` and `mflo` have noted the
registers it uses. Only where sequential execution runs off the top of the address space does the step stop in its place (R32). -/
def Obligations.StepRunsDecodedInstruction : Prop :=
  ∀ (s t : State) (w : Word) (i : Instr), s.agenda = [] → s.dev.coreRuns = true → decode w = .instr i →
    ((s.pending = .exec w ∧ t = s) ∨ (s.pending = .fetch ∧ s.fetch = .ok w t) ∨
      (s.pending = .none ∧ s.dev.intr.nmi = false ∧ s.interruptPending = false ∧ s.fetch = .ok w t)) →
    let o := exec i (State.noteUse { t with pending := .exec w } i)
    let offTop (u : State) : Prop :=
      if s.ds then s.pc = 0xFFFFFFFC ∧ u.pc = 0 ∧ s.recent.head? = some .untaken
      else (s.pc = 0xFFFFFFFC ∧ u.pc.toNat < 8) ∨ (s.pc = 0xFFFFFFF8 ∧ u.pc = 0)
    (∀ u, o = .next u → (offTop u → step s = .refused .pcWrap) ∧ (¬ offTop u → step s = .next u)) ∧
    (∀ r, o = .refused r → step s = .refused r)

/-- A word placed for the next fetch of the reset state is the word that is fetched there, in 32 bits. -/
def Obligations.PlacedWordIsFetched : Prop :=
  ∀ w : Nat, w < 2 ^ 32 → ∃ t, (State.reset.withFetchWord 32 w).fetch = .ok (BitVec.ofNat 32 w) t

/-- In a state without hazards a source operand is the register, and the coprocessor 0 values that an instruction uses are the registers;
in the instruction after a load of register `r` the operand is the new or the old value (log entries 10 and 12), but `lwl` after `lwr` and
`lwr` after `lwl` of one register merge into the loaded value (R1080). -/
def Obligations.OperandValues : Prop :=
  (∀ (s : State) (r : Reg), NoHazards s →
    s.opReg r = s.reg r ∧ (∀ k, s.mergeReg r k = s.reg r) ∧ (∀ n a b, s.seenEntryHi n a b = s.cp0.entryHi) ∧
      (∀ a, s.seenEntryLo a = s.cp0.entryLo) ∧ (∀ a, s.seenIndex a = s.cp0.index) ∧ (∀ n m, s.seenStatus n m = s.cp0.status &&& m) ∧
      (∀ n, s.seenTlb n = s.tlb)) ∧
  (∀ (s : State) (r q : Reg) (old : Word) (k m : LoadKind) (ts : List Trace), s.recent = .loaded q old k :: ts →
    (s.opReg r = s.reg r ∨ (r = q ∧ r ≠ 0 ∧ s.opReg r = old)) ∧
    s.mergeReg r m = if r = q ∧ ((m = .left ∧ k = .right) ∨ (m = .right ∧ k = .left)) then s.reg r else s.opReg r)

/-! ## Arithmetic -/

/-- The register results of the three-register instructions that do not trap (R342, R344 to R350). -/
def Obligations.RegisterResults : Prop :=
  ∀ (s : State) (rs rt rd : Reg),
    let x := s.opReg rs
    let y := s.opReg rt
    WritesOnly (.addu rs rt rd) s rd (x + y) ∧ WritesOnly (.subu rs rt rd) s rd (x - y) ∧
    WritesOnly (.and rs rt rd) s rd (x &&& y) ∧ WritesOnly (.or rs rt rd) s rd (x ||| y) ∧ WritesOnly (.xor rs rt rd) s rd (x ^^^ y) ∧
    WritesOnly (.nor rs rt rd) s rd (~~~(x ||| y)) ∧
    WritesOnly (.slt rs rt rd) s rd (if x.toInt < y.toInt then 1 else 0) ∧
    WritesOnly (.sltu rs rt rd) s rd (if x.toNat < y.toNat then 1 else 0)

/-- The results of the immediate instructions that do not trap (R352 to R358): arithmetic and comparisons sign-extend, logic
zero-extends. -/
def Obligations.ImmediateResults : Prop :=
  ∀ (s : State) (rs rt : Reg) (imm : BitVec 16),
    let x := s.opReg rs
    let y : Word := BitVec.ofInt 32 imm.toInt
    let z : Word := BitVec.ofNat 32 imm.toNat
    WritesOnly (.addiu rs rt imm) s rt (x + y) ∧
    WritesOnly (.slti rs rt imm) s rt (if x.toInt < imm.toInt then 1 else 0) ∧
    WritesOnly (.sltiu rs rt imm) s rt (if x.toNat < y.toNat then 1 else 0) ∧
    WritesOnly (.andi rs rt imm) s rt (x &&& z) ∧ WritesOnly (.ori rs rt imm) s rt (x ||| z) ∧
    WritesOnly (.xori rs rt imm) s rt (x ^^^ z) ∧ WritesOnly (.lui rt imm) s rt (BitVec.ofNat 32 (imm.toNat * 65536))

/-- `add`, `sub`, `addi` write the exact sum or difference when it fits 32 bits signed; otherwise they raise Overflow and write no
register (R341, R343, R351). -/
def Obligations.OverflowTraps : Prop :=
  ∀ (s : State) (rs rt rd : Reg) (imm : BitVec 16),
    let fits (v : Int) : Prop := -2 ^ 31 ≤ v ∧ v < 2 ^ 31
    let arith (i : Instr) (d : Reg) (v : Int) : Prop :=
      (fits v → WritesOnly i s d (BitVec.ofInt 32 v)) ∧ (¬ fits v → exec i s = .next (s.raise .ov))
    arith (.add rs rt rd) rd ((s.opReg rs).toInt + (s.opReg rt).toInt) ∧
    arith (.sub rs rt rd) rd ((s.opReg rs).toInt - (s.opReg rt).toInt) ∧
    arith (.addi rs rt imm) rt ((s.opReg rs).toInt + imm.toInt)

/-- The shifts as multiplication and division by a power of two (R360 to R365); a variable shift uses the low five bits. -/
def Obligations.ShiftResults : Prop :=
  ∀ (s : State) (rs rt rd : Reg) (shamt : BitVec 5),
    let y := s.opReg rt
    let n := (s.opReg rs).toNat % 32
    let left (k : Nat) : Word := BitVec.ofNat 32 (y.toNat * 2 ^ k)
    let right (k : Nat) : Word := BitVec.ofNat 32 (y.toNat / 2 ^ k)
    let arith (k : Nat) : Word := BitVec.ofInt 32 (y.toInt / 2 ^ k)
    WritesOnly (.sll rt rd shamt) s rd (left shamt.toNat) ∧ WritesOnly (.srl rt rd shamt) s rd (right shamt.toNat) ∧
    WritesOnly (.sra rt rd shamt) s rd (arith shamt.toNat) ∧ WritesOnly (.sllv rs rt rd) s rd (left n) ∧
    WritesOnly (.srlv rs rt rd) s rd (right n) ∧ WritesOnly (.srav rs rt rd) s rd (arith n)

/-! ## Multiply and divide -/

/-- The multiplications and multiply-adds: HI : LO is the exact product, or the sum modulo 2^64, and `rd` receives its low word (R382,
R384, R390, R391); everything else is as before. -/
def Obligations.MultiplyResults : Prop :=
  ∀ (s : State) (rs rt rd : Reg), HiLoSettled s →
    let x := s.opReg rs
    let y := s.opReg rt
    let result (i : Instr) (p : BitVec 64 → Prop) : Prop :=
      ∃ t, exec i s = .next t ∧ p t.acc ∧ WritesReg s t rd t.lo ∧ Keeps s t ∧ Advances s t
    result (.mult rs rt rd) (fun a => a.toInt = x.toInt * y.toInt) ∧
    result (.multu rs rt rd) (fun a => a.toNat = x.toNat * y.toNat) ∧
    result (.madd rs rt rd) (fun a => a = BitVec.ofInt 64 (s.acc.toInt + x.toInt * y.toInt)) ∧
    result (.maddu rs rt rd) (fun a => a = BitVec.ofNat 64 (s.acc.toNat + x.toNat * y.toNat))

/-- `div` rounds toward zero and leaves a remainder with the sign of the dividend, in LO and HI; -2^31 by -1 gives 0x80000000 and 0;
`divu` divides without a sign (R385, R386). A division by zero completes like any other, with values in HI and LO of which nothing is
said. No trap, and everything else is as before. -/
def Obligations.DivideResults : Prop :=
  ∀ (s : State) (rs rt : Reg), HiLoSettled s →
    let x := s.opReg rs
    let y := s.opReg rt
    let result (i : Instr) (p : Word → Word → Prop) : Prop :=
      ∃ t, exec i s = .next t ∧ (y ≠ 0 → p t.lo t.hi) ∧ KeepsRegs s t ∧ Keeps s t ∧ Advances s t
    result (.div rs rt) (fun lo hi =>
      if x.toInt = -2 ^ 31 ∧ y.toInt = -1 then lo = 0x80000000 ∧ hi = 0
      else lo.toInt = x.toInt.tdiv y.toInt ∧ hi.toInt = x.toInt.tmod y.toInt) ∧
    result (.divu rs rt) (fun lo hi => lo.toNat = x.toNat / y.toNat ∧ hi.toNat = x.toNat % y.toNat)

/-- The moves of HI and LO (R387, R388, R389, R392). -/
def Obligations.HiLoMoves : Prop :=
  (∀ (s : State) (rd : Reg), WritesOnly (.mfhi rd) s rd s.hi ∧ WritesOnly (.mflo rd) s rd s.lo) ∧
  (∀ (s : State) (rs : Reg), HiLoSettled s →
    (∃ t, exec (.mthi rs) s = .next t ∧ t.hi = s.opReg rs ∧ t.lo = s.lo ∧ KeepsRegs s t ∧ Keeps s t ∧ Advances s t) ∧
    (∃ t, exec (.mtlo rs) s = .next t ∧ t.lo = s.opReg rs ∧ t.hi = s.hi ∧ KeepsRegs s t ∧ Keeps s t ∧ Advances s t))

/-- HI or LO is written when `mfhi` or `mflo` stands among the last two instructions (R1081, the model's choice, log entry 11): where no
instruction has used a value read, the write completes as ever and only the registers that were read into are open; where one has, the
machine stops. -/
def Obligations.HiLoHazard : Prop :=
  ∀ (s : State) (rs rt rd : Reg),
    let reads := (s.recent.take 2).filterMap Trace.hiLo
    let x := s.opReg rs
    let y := s.opReg rt
    let writes (i : Instr) (d : Reg) (p : State → Prop) : Prop :=
      if reads.any (·.2) then exec i s = .refused .hiLoHazard
      else ∃ t, exec i s = .next t ∧ p t ∧ (∀ r, r ≠ d → (∀ q ∈ reads, q.1 ≠ r) → t.reg r = s.reg r) ∧ (d ≠ 0 → t.reg d = t.lo) ∧
        Keeps s t ∧ Advances s t
    writes (.mthi rs) 0 (fun t => t.hi = x ∧ t.lo = s.lo) ∧ writes (.mtlo rs) 0 (fun t => t.lo = x ∧ t.hi = s.hi) ∧
    writes (.mult rs rt rd) rd (fun t => t.acc.toInt = x.toInt * y.toInt) ∧
    writes (.multu rs rt rd) rd (fun t => t.acc.toNat = x.toNat * y.toNat) ∧
    writes (.madd rs rt rd) rd (fun t => t.acc = BitVec.ofInt 64 (s.acc.toInt + x.toInt * y.toInt)) ∧
    writes (.maddu rs rt rd) rd (fun t => t.acc = BitVec.ofNat 64 (s.acc.toNat + x.toNat * y.toNat)) ∧
    writes (.div rs rt) 0 (fun t => y ≠ 0 → ¬ (x.toInt = -2 ^ 31 ∧ y.toInt = -1) →
      t.lo.toInt = x.toInt.tdiv y.toInt ∧ t.hi.toInt = x.toInt.tmod y.toInt) ∧
    writes (.divu rs rt) 0 (fun t => y ≠ 0 → t.lo.toNat = x.toNat / y.toNat ∧ t.hi.toNat = x.toNat % y.toNat)

/-! ## Jumps and branches -/

/-- The jumps: the delay slot is executed, then the target; a link register receives the address after the delay slot; `jalr` with equal
registers stops (R402 to R405). -/
def Obligations.Jumps : Prop :=
  ∀ (s : State) (rs rd : Reg) (target : BitVec 26), s.ds = false →
    let region : Word := ((s.pc + 4) &&& 0xF0000000) + BitVec.ofNat 32 (4 * target.toNat)
    Transfers (.j target) s region ∧ TransfersLinking (.jal target) s 31 (s.pc + 8) region ∧
    Transfers (.jr rs) s (s.opReg rs) ∧
    (if rd = rs then exec (.jalr rs rd) s = .refused .jalrSameRegister
      else TransfersLinking (.jalr rs rd) s rd (s.pc + 8) (s.opReg rs))

/-- The six branches: the delay slot is executed whether or not the branch is taken; a taken branch goes to the address of the delay slot
plus four times the offset (R406 to R411). -/
def Obligations.Branches : Prop :=
  ∀ (s : State) (rs rt : Reg) (imm : BitVec 16), s.ds = false →
    let x := s.opReg rs
    let goes (i : Instr) (c : Prop) : Prop :=
      (c → Transfers i s (s.pc + 4 + BitVec.ofInt 32 (4 * imm.toInt))) ∧ (¬ c → Transfers i s (s.npc + 4))
    goes (.beq rs rt imm) (x = s.opReg rt) ∧ goes (.bne rs rt imm) (x ≠ s.opReg rt) ∧ goes (.blez rs imm) (x.toInt ≤ 0) ∧
    goes (.bgtz rs imm) (0 < x.toInt) ∧ goes (.bltz rs imm) (x.toInt < 0) ∧ goes (.bgez rs imm) (0 ≤ x.toInt)

/-- The six likely branches that do not link: taken, they are as the others; not taken, the delay slot is nullified (R414 to R419,
R1200). -/
def Obligations.LikelyBranches : Prop :=
  ∀ (s : State) (rs rt : Reg) (imm : BitVec 16), s.ds = false →
    let x := s.opReg rs
    let goes (i : Instr) (c : Prop) : Prop :=
      (c → Transfers i s (s.pc + 4 + BitVec.ofInt 32 (4 * imm.toInt))) ∧ (¬ c → Skips i s)
    goes (.beql rs rt imm) (x = s.opReg rt) ∧ goes (.bnel rs rt imm) (x ≠ s.opReg rt) ∧ goes (.blezl rs imm) (x.toInt ≤ 0) ∧
    goes (.bgtzl rs imm) (0 < x.toInt) ∧ goes (.bltzl rs imm) (x.toInt < 0) ∧ goes (.bgezl rs imm) (0 ≤ x.toInt)

/-- The four linking branches write register 31 whether or not they are taken; the likely ones nullify the delay slot when not taken; on
register 31 they stop (R412, R413, R1201, R1202). -/
def Obligations.LinkingBranches : Prop :=
  ∀ (s : State) (rs : Reg) (imm : BitVec 16), s.ds = false →
    if rs = 31 then
      ∀ i ∈ [Instr.bltzal rs imm, .bgezal rs imm, .bltzall rs imm, .bgezall rs imm], exec i s = .refused .linkOnLinkRegister
    else
      let x := s.opReg rs
      let target := s.pc + 4 + BitVec.ofInt 32 (4 * imm.toInt)
      let link := s.pc + 8
      let goes (i : Instr) (c : Prop) : Prop :=
        (c → TransfersLinking i s 31 link target) ∧ (¬ c → TransfersLinking i s 31 link (s.npc + 4))
      let goesLikely (i : Instr) (c : Prop) : Prop := (c → TransfersLinking i s 31 link target) ∧ (¬ c → SkipsLinking i s 31 link)
      goes (.bltzal rs imm) (x.toInt < 0) ∧ goes (.bgezal rs imm) (0 ≤ x.toInt) ∧ goesLikely (.bltzall rs imm) (x.toInt < 0) ∧
      goesLikely (.bgezall rs imm) (0 ≤ x.toInt)

/-- Where a jump or branch stops: in a delay slot (R401), `jalr` with equal registers (R405), a linking branch on register 31 (R412,
R413, R1201, R1202). -/
def Obligations.BranchStops : Prop :=
  (∀ (s : State) (rs rt rd : Reg) (imm : BitVec 16) (target : BitVec 26), s.ds = true →
    (∀ i ∈ [Instr.j target, .jal target, .jr rs, .beq rs rt imm, .bne rs rt imm, .blez rs imm, .bgtz rs imm, .bltz rs imm,
        .bgez rs imm, .beql rs rt imm, .bnel rs rt imm, .blezl rs imm, .bgtzl rs imm, .bltzl rs imm, .bgezl rs imm],
      exec i s = .refused .branchInDelaySlot) ∧
    (rd ≠ rs → exec (.jalr rs rd) s = .refused .branchInDelaySlot) ∧
    (rs ≠ 31 → ∀ i ∈ [Instr.bltzal rs imm, .bgezal rs imm, .bltzall rs imm, .bgezall rs imm], exec i s = .refused .branchInDelaySlot)) ∧
  (∀ (s : State) (rs : Reg), exec (.jalr rs rs) s = .refused .jalrSameRegister) ∧
  (∀ (s : State) (imm : BitVec 16), ∀ i ∈ [Instr.bltzal 31 imm, .bgezal 31 imm, .bltzall 31 imm, .bgezall 31 imm],
    exec i s = .refused .linkOnLinkRegister)

/-- The branches on a coprocessor condition (R447): with CUz = 0 Coprocessor Unusable with CE = z, delay slot or not; with CUz = 1 those
of coprocessors 1 and 2 stop, `bc3t` branches while IRQHIGH is asserted and `bc3f` while it is not. -/
def Obligations.InterruptConditionBranches : Prop :=
  ∀ (s : State) (imm : BitVec 16),
    let unusable (z : Nat) (is : List Instr) : Prop :=
      ∀ i ∈ is, s.copUsable z = false → exec i s = .next (s.raise (.cpu (BitVec.ofNat 2 z)))
    let goes (i : Instr) (c : Prop) : Prop :=
      (c → Transfers i s (s.pc + 4 + BitVec.ofInt 32 (4 * imm.toInt))) ∧ (¬ c → Transfers i s (s.npc + 4))
    unusable 1 [.bc1f imm, .bc1t imm] ∧ unusable 2 [.bc2f imm, .bc2t imm] ∧ unusable 3 [.bc3f imm, .bc3t imm] ∧
    (s.copUsable 1 = true → ∀ i ∈ [Instr.bc1f imm, .bc1t imm], exec i s = .refused .conditionAbsent) ∧
    (s.copUsable 2 = true → ∀ i ∈ [Instr.bc2f imm, .bc2t imm], exec i s = .refused .conditionAbsent) ∧
    (s.copUsable 3 = true →
      if s.ds then ∀ i ∈ [Instr.bc3f imm, .bc3t imm], exec i s = .refused .branchInDelaySlot
      else goes (.bc3t imm) (s.dev.intr.irqHigh = true) ∧ goes (.bc3f imm) (s.dev.intr.irqHigh = false))

/-! ## Loads and stores -/

/-- The aligned loads, from the word that the data read gives: the byte at the address, the half-word and the word put together in the byte
order, sign- or zero-extended (R102, R422 to R426). -/
def Obligations.AlignedLoads : Prop :=
  ∀ (s u : State) (rs rt : Reg) (imm : BitVec 16) (w : Word),
    let va := s.effAddr rs imm
    let big := s.board.bigEndian
    let b (k : Nat) : Byte := wordByte big w k
    let o := va.toNat % 4
    (ReadsWord s va (s.byteBe va) w u →
      Loads (.lb rs rt imm) s u rt ((b o).signExtend 32) ∧ Loads (.lbu rs rt imm) s u rt ((b o).setWidth 32)) ∧
    (ReadsWord s va (s.halfBe va) w u → va.toNat % 2 = 0 →
      let h : Half := if big then b o ++ b (o + 1) else b (o + 1) ++ b o
      Loads (.lh rs rt imm) s u rt (h.signExtend 32) ∧ Loads (.lhu rs rt imm) s u rt (h.setWidth 32)) ∧
    (ReadsWord s va 0xF w u → va.toNat % 4 = 0 →
      Loads (.lw rs rt imm) s u rt (if big then b 0 ++ b 1 ++ b 2 ++ b 3 else b 3 ++ b 2 ++ b 1 ++ b 0))

/-- The unaligned loads merge the word that the data read gives into the register byte by byte, as the tables of R430 and R431 say. -/
def Obligations.UnalignedLoads : Prop :=
  ∀ (s u : State) (rs rt : Reg) (imm : BitVec 16) (w : Word),
    let va := s.effAddr rs imm
    let big := s.board.bigEndian
    let o := va.toNat % 4
    (ReadsWord s va (leftEnable (leftShift big va)) w u →
      ∃ v, Loads (.lwl rs rt imm) s u rt v ∧ ∀ n < 4,
        let k := if big then o else 3 - o
        byteOf v n = if n < k then byteOf (s.mergeReg rt .left) n else byteOf w (n - k)) ∧
    (ReadsWord s va (rightEnable (rightShift big va)) w u →
      ∃ v, Loads (.lwr rs rt imm) s u rt v ∧ ∀ n < 4,
        let k := if big then 3 - o else o
        byteOf v n = if n + k < 4 then byteOf w (n + k) else byteOf (s.mergeReg rt .right) n)

/-- What a data read gives and does. An uncached one waits for the write buffer (R121), and reads the bytes of memory in the byte order
(R102); a cached one that hits makes no access (R52); one that misses drains the write buffer, reads the burst around the address, gives its
word and leaves every word of the burst in the data cache, under its place, everything else as the burst left it. What the cached clauses say
beyond R52, that a hit returns the line's word also in runs that D11 and R125 would refuse, that the length of the burst is a parameter of the
board, and that every word of it is allocated, is the model's choice (log entry 16). -/
def Obligations.LoadedWords : Prop :=
  ∀ (s : State) (pa : Word) (be : BitVec 4),
    (∀ (d v : State) (r : Region) (key : Nat) (a : Attach),
      s.drainAll = .ok () d → d.isRegister pa = false → d.target (wordAddr pa) = .ok (.cells r key a) → a ≠ .nothing →
      d.transact .core (.cells r key a) be false = .ok true v →
      ∃ w, s.dataRead pa false be = .ok w v ∧ v = { d with dev := v.dev } ∧
        ∀ k < 4, wordByte s.board.bigEndian w k = d.mem.read (key + k)) ∧
    (s.mapAhead.isRegister pa = false →
      (∀ w, s.cachedWord (wordAddr pa) = some w → s.dataRead pa true be = .ok w s) ∧
      (∀ (d v : State) (ws : List Word),
        let n := s.board.dBurst.words
        let base := blockBase (wordAddr pa) n
        s.cachedWord (wordAddr pa) = none → s.drainAll = .ok () d → d.burstRead .core base .dbe n = .ok ws v →
        ∃ w u, s.dataRead pa true be = .ok w u ∧ u = { v with dcache := u.dcache } ∧ ws[(wordAddr pa - base).toNat / 4]? = some w ∧
          ((∀ k < n, (v.place (base + BitVec.ofNat 32 (4 * k))).isSome) →
            u.cachedWord (wordAddr pa) = some w ∧ ∀ k < n, u.cachedWord (base + BitVec.ofNat 32 (4 * k)) = ws[k]?)))

/-- The Address Errors of a load, of a store and of a fetch, before any access: a misaligned word or half-word (R421), and in user mode
every address with bit 31 set (R107, R470). -/
def Obligations.AddressErrors : Prop :=
  ∀ (s : State) (rs rt : Reg) (imm : BitVec 16),
    let va := s.effAddr rs imm
    let fails (i : Instr) (e : Exc) : Prop := exec i s = .next (s.raise e)
    let user : Prop := StatusSettled s ∧ s.cp0.status.getLsbD 1 = true
    (va.toNat % 4 ≠ 0 → fails (.lw rs rt imm) (.adel va) ∧ fails (.sw rs rt imm) (.ades va)) ∧
    (va.toNat % 2 ≠ 0 → fails (.lh rs rt imm) (.adel va) ∧ fails (.lhu rs rt imm) (.adel va) ∧ fails (.sh rs rt imm) (.ades va)) ∧
    (user → va.getLsbD 31 = true →
      (∀ i ∈ [Instr.lb rs rt imm, .lbu rs rt imm, .lh rs rt imm, .lhu rs rt imm, .lw rs rt imm, .lwl rs rt imm, .lwr rs rt imm],
        fails i (.adel va)) ∧
      (∀ i ∈ [Instr.sb rs rt imm, .sh rs rt imm, .sw rs rt imm, .swl rs rt imm, .swr rs rt imm], fails i (.ades va))) ∧
    ((∀ w, s.pending ≠ .exec w) → s.pc.toNat % 4 ≠ 0 ∨ (user ∧ s.pc.getLsbD 31 = true) → s.fetchExec = .next (s.raise (.adel s.pc)))

/-- The exceptions of an access (R281, R420): the one that translation raises, for a fetch, a load and a store; and the bus error of an
uncached load and fetch that nothing answers while the watch dog is enabled (R242, R471). -/
def Obligations.AccessExceptions : Prop :=
  ∀ (s : State) (rs rt : Reg) (imm : BitVec 16),
    let va := s.effAddr rs imm
    let byteLoads : List Instr := [.lb rs rt imm, .lbu rs rt imm, .lwl rs rt imm, .lwr rs rt imm]
    let halfLoads : List Instr := [.lh rs rt imm, .lhu rs rt imm]
    let timesOut (pa : Word) : Prop :=
      s.wb = [] ∧ s.isRegister pa = false ∧ s.target (wordAddr pa) = .ok .silent ∧ s.dev.biu.mc4.getLsbD 24 = true ∧
        s.dev.biu.held = none ∧ s.dev.biu.turn ≠ .over ∧ s.dev.granted = false
    (∀ e, s.translate .load va = .exc e s →
      (∀ i ∈ byteLoads, exec i s = .next (s.raise e)) ∧ (va.toNat % 2 = 0 → ∀ i ∈ halfLoads, exec i s = .next (s.raise e)) ∧
      (va.toNat % 4 = 0 → exec (.lw rs rt imm) s = .next (s.raise e))) ∧
    (∀ e, s.translate .store va = .exc e s →
      (∀ i ∈ [Instr.sb rs rt imm, .swl rs rt imm, .swr rs rt imm], exec i s = .next (s.raise e)) ∧
      (va.toNat % 2 = 0 → exec (.sh rs rt imm) s = .next (s.raise e)) ∧ (va.toNat % 4 = 0 → exec (.sw rs rt imm) s = .next (s.raise e))) ∧
    (∀ e, s.pc.toNat % 4 = 0 → (∀ w, s.pending ≠ .exec w) → s.translate .fetch s.pc = .exc e s → s.fetchExec = .next (s.raise e)) ∧
    (∀ pa, s.translate .load va = .ok (pa, false) s → timesOut pa →
      let fails (i : Instr) : Prop := ∃ t : State, exec i s = .next (t.raise .dbe) ∧ t = { s with dev := t.dev }
      (∀ i ∈ byteLoads, fails i) ∧ (va.toNat % 2 = 0 → ∀ i ∈ halfLoads, fails i) ∧ (va.toNat % 4 = 0 → fails (.lw rs rt imm))) ∧
    (∀ pa, s.pc.toNat % 4 = 0 → (∀ w, s.pending ≠ .exec w) → s.translate .fetch s.pc = .ok (pa, false) s → pa = wordAddr pa → timesOut pa →
      ∃ t : State, s.fetchExec = .next (t.raise .ibe) ∧ t = { s with dev := t.dev })

/-- The function registers take word accesses: `lw`, and an `lwl` or `lwr` that covers the whole word, reads the register and the modules do
what the read makes them do, a word that reaches the bus writes it (R104); a narrower access stops, `lwl`, `lwr`, `swl` and `swr` that cover
part of the word included, and so does every access through a cached address (D10, D11, log entry 21). Which address is one of theirs is a matter of
the map that the access meets behind the writes in the write buffer (log entry 21). -/
def Obligations.FunctionRegisterAccess : Prop :=
  (∀ (s u : State) (rs rt : Reg) (imm : BitVec 16) (pa : Word) (off : Nat),
    let va := s.effAddr rs imm
    let left : Prop := va.toNat % 4 = if s.board.bigEndian then 0 else 3
    let right : Prop := va.toNat % 4 = if s.board.bigEndian then 3 else 0
    let reads (i : Instr) : Prop := s.transact .core (.register off) 0xF false = .ok true u →
      ∀ w d, u.dev.frRead s.board.variant off (s.free tagWriteOnly) (s.free tagTorn) = some (w, d) →
        ∃ t, exec i s = .next t ∧ WritesReg s t rt w ∧ KeepsAcc s t ∧ Keeps { s with dev := d.settle (s.free tagChi) } t ∧ Advances s t
    s.wb = [] → s.translate .load va = .ok (pa, false) s → s.isRegister pa = true → s.target (wordAddr pa) = .ok (.register off) →
    (va.toNat % 4 = 0 → reads (.lw rs rt imm)) ∧ (left → reads (.lwl rs rt imm)) ∧ (right → reads (.lwr rs rt imm)) ∧
    (¬ left → exec (.lwl rs rt imm) s = .refused .frNarrow) ∧ (¬ right → exec (.lwr rs rt imm) s = .refused .frNarrow) ∧
    exec (.lb rs rt imm) s = .refused .frNarrow ∧ exec (.lbu rs rt imm) s = .refused .frNarrow ∧
    (va.toNat % 2 = 0 → exec (.lh rs rt imm) s = .refused .frNarrow ∧ exec (.lhu rs rt imm) s = .refused .frNarrow)) ∧
  (∀ (s : State) (rs rt : Reg) (imm : BitVec 16) (pa : Word) (cached : Bool),
    let va := s.effAddr rs imm
    let left : Prop := va.toNat % 4 = if s.board.bigEndian then 0 else 3
    let right : Prop := va.toNat % 4 = if s.board.bigEndian then 3 else 0
    let stop : Refusal := if cached then .frCached else .frNarrow
    s.mapAhead.isRegister pa = true →
    (s.translate .store va = .ok (pa, cached) s → exec (.sb rs rt imm) s = .refused stop ∧
      (va.toNat % 2 = 0 → exec (.sh rs rt imm) s = .refused stop) ∧
      (¬ left ∨ cached = true → exec (.swl rs rt imm) s = .refused stop) ∧
      (¬ right ∨ cached = true → exec (.swr rs rt imm) s = .refused stop) ∧
      (va.toNat % 4 = 0 → cached = true → exec (.sw rs rt imm) s = .refused .frCached)) ∧
    (s.translate .load va = .ok (pa, true) s →
      (∀ i ∈ [Instr.lb rs rt imm, .lbu rs rt imm, .lwl rs rt imm, .lwr rs rt imm], exec i s = .refused .frCached) ∧
      (va.toNat % 2 = 0 → ∀ i ∈ [Instr.lh rs rt imm, .lhu rs rt imm], exec i s = .refused .frCached) ∧
      (va.toNat % 4 = 0 → exec (.lw rs rt imm) s = .refused .frCached))) ∧
  (∀ (s u : State) (e : WbEntry) (off : Nat) (d : Dev),
    s.target e.pa = .ok (.register off) → e.be = 0xF → s.transact .buffer (.register off) e.be true = .ok true u →
    u.dev.frWrite s.board.variant off e.data (s.free tagOverrun) = .ok d →
    s.busWrite e = .ok () { s with dev := d.settle (s.free tagChi) })

/-- A store puts exactly its bytes into the write buffer, once there is space: which byte of the register goes to which byte of the word, in
both byte orders (R102, R120, R427 to R429, R432, R433). No register and no byte of memory changes. The data cache sees the store: where it
holds the word of the place, a cached store replaces the bytes stored if the place is RAM, and nothing if it takes no store; an uncached one
replaces them, or nothing, or invalidates the word (N20-2); no word is allocated and none of another place is touched. What the clauses on the data
cache say is the model's choice (R125, log entries 16 and 25). -/
def Obligations.StoresEnterWriteBuffer : Prop :=
  (∀ (s : State) (rs rt : Reg) (imm : BitVec 16) (pa : Word) (cached : Bool), s.wb.length < 4 → StoreBytes s s rs rt imm pa cached) ∧
  (∀ (s : State) (pa data : Word) (be : BitVec 4) (cached : Bool),
    let t := s.cacheStore pa data be cached
    let wordOf (p : Word) : Option (BitVec 30) := (s.place p).map fun a => a.1.extractLsb' 2 30
    (∀ p, wordOf p ≠ wordOf pa → t.cachedWord p = s.cachedWord p) ∧
    (s.cachedWord pa = none → t = s) ∧
    (∀ w, s.cachedWord pa = some w →
      let stored : Prop := ∃ v, t.cachedWord pa = some v ∧ ∀ j < 4, byteOf v j = if be.getLsbD j then byteOf data j else byteOf w j
      if cached then (if (s.place pa).map (·.2) = some .ram then stored else t.cachedWord pa = some w)
      else stored ∨ t.cachedWord pa = some w ∨ t.cachedWord pa = none))

/-- The write transaction of an entry whose address selects RAM changes exactly the bytes that the entry stores: a cell of the word gets
the entry's byte where it stores one, every other cell keeps its own (R102, R120). -/
def Obligations.WriteReachesMemory : Prop :=
  ∀ (s v : State) (e : WbEntry) (r : Region) (key : Nat), s.mem.wf = true → s.target e.pa = .ok (.cells r key .ram) →
    s.transact .buffer (.cells r key .ram) e.be true = .ok true v →
    ∃ t, s.busWrite e = .ok () t ∧ t = { s with mem := t.mem, dev := v.dev } ∧
      ∀ a, t.mem.read a = if key ≤ a ∧ a < key + 4 then (e.byteAt s.board.bigEndian (a - key)).getD (s.mem.read a) else s.mem.read a

/-- A store into a full write buffer waits until the oldest entry has been performed, and then takes its place (R120). -/
def Obligations.FullWriteBufferDrains : Prop :=
  ∀ (s v : State) (e : WbEntry) (es : List WbEntry) (rs rt : Reg) (imm : BitVec 16) (pa : Word) (cached : Bool),
    s.wb = e :: es → es.length = 3 → s.busWrite e = .ok () v → StoreBytes s { v with wb := es } rs rt imm pa cached

/-- A word stored through an unmapped, uncached address is the word that the next instruction loads from there, whatever stands in the write
buffer before it: the load waits for all of it (R120, R121). `d` is the machine when the older entries have been performed, and awake memory
takes the store; the step keeps the bus for all its transactions. -/
def Obligations.StoreThenLoad : Prop :=
  ∀ (s t d : State) (rs rt rd : Reg) (imm : BitVec 16) (second : Bool) (key : Nat),
    let va := s.effAddr rs imm
    let pa := va &&& 0x1FFFFFFF
    s.mem.wf = true → s.wb.length < 4 → StatusSettled s → s.cp0.status.getLsbD 1 = false → s.opReg rs = s.reg rs →
    va.extractLsb' 29 3 = 0b101#3 → va.toNat % 4 = 0 → exec (.sw rs rt imm) s = .next t →
    State.drain s.wb.length t = .ok () d → d.isRegister pa = false → d.target pa = .ok (.cells (.bank second) key .ram) →
    d.dev.biu.held = none → d.dev.biu.turn = .whole → d.dev.busRequest = false → d.dev.granted = false → d.dev.biu.powerDown = false →
    ∃ u, exec (.lw rs rd imm) t = .next u ∧ WritesReg s u rd (s.opReg rt) ∧ u.wb = [] ∧ u.pc = t.npc

/-- `sync` completes when the write buffer is empty (R448): what empties it is all that happens. Where the bus keeps an entry waiting, so does
`sync`. With an empty buffer it does nothing but advance. -/
def Obligations.SyncEmptiesWriteBuffer : Prop :=
  ∀ s : State,
    (∀ d, s.drainAll = .ok () d →
      ∃ t, exec .sync s = .next t ∧ t.wb = [] ∧ KeepsRegs s t ∧ KeepsAcc s t ∧ Keeps d t ∧ t.cp0 = s.cp0 ∧ t.tlb = s.tlb ∧ Advances s t) ∧
    (∀ d, s.drainAll = .wait d → exec .sync s = .next d ∧ d.wb ≠ [] ∧ d.pc = s.pc ∧ d.npc = s.npc ∧ d.ds = s.ds ∧ d.pending = s.pending) ∧
    (s.wb = [] → ∃ t, exec .sync s = .next t ∧ KeepsRegs s t ∧ KeepsAcc s t ∧ Keeps s t ∧ Advances s t)

/-! ## Exceptions -/

/-- `syscall` and `break` take their exceptions whatever their code field holds (R440, R441). -/
def Obligations.SyscallAndBreak : Prop :=
  ∀ (s : State) (code : BitVec 20), exec (.syscall code) s = .next (s.raise .sys) ∧ exec (.brk code) s = .next (s.raise .bp)

/-- Exception entry (R461, R465): EPC and BD, ExcCode, CE for Coprocessor Unusable, the push of the mode stack, the vector; no general
register, HI, LO, TLB entry, buffered store, byte of memory, cache line or module changes. -/
def Obligations.ExceptionEntry : Prop :=
  ∀ (s : State) (e : Exc),
    let t := s.raise e
    let excCode : Nat :=
      match e with
      | .int => 0
      | .mod _ => 1
      | .tlbl _ _ => 2
      | .tlbs _ _ => 3
      | .adel _ => 4
      | .ades _ => 5
      | .ibe => 6
      | .dbe => 7
      | .sys => 8
      | .bp => 9
      | .ri => 10
      | .cpu _ => 11
      | .ov => 12
    t.cp0.epc = (if s.ds then s.pc - 4 else s.pc) ∧ t.cp0.bd = s.ds ∧ t.cp0.exc.toNat = excCode ∧ (∀ z, e = .cpu z → t.cp0.ce = z) ∧
    t.cp0.status.extractLsb' 0 6 = s.cp0.status.extractLsb' 0 4 ++ 0#2 ∧
    t.cp0.status.extractLsb' 6 26 = s.cp0.status.extractLsb' 6 26 ∧
    t.cp0.index = s.cp0.index ∧ t.cp0.entryLo = s.cp0.entryLo ∧ t.cp0.sw = s.cp0.sw ∧
    t.npc = t.pc + 4 ∧ t.ds = false ∧ t.pending = .none ∧ KeepsRegs s t ∧ KeepsAcc s t ∧ Keeps s { t with cp0 := s.cp0 }

/-- What an address or TLB exception records (R466): BadVAddr is the address; the TLB exceptions put its page number into Context and
EntryHi; PTEBase and PID stay; every other exception leaves the three registers alone. -/
def Obligations.ExceptionAddresses : Prop :=
  ∀ (s : State) (va : Word) (refill : Bool),
    (∀ e ∈ [Exc.adel va, .ades va], (s.raise e).cp0.badVAddr = va ∧ (s.raise e).cp0.context = s.cp0.context ∧
      (s.raise e).cp0.entryHi = s.cp0.entryHi) ∧
    (∀ e ∈ [Exc.mod va, .tlbl va refill, .tlbs va refill],
      let c := (s.raise e).cp0
      c.badVAddr = va ∧ c.context.extractLsb' 2 19 = va.extractLsb' 12 19 ∧ c.context.extractLsb' 21 11 = s.cp0.context.extractLsb' 21 11 ∧
      c.entryHi.extractLsb' 12 20 = va.extractLsb' 12 20 ∧ c.entryHi.extractLsb' 0 12 = s.cp0.entryHi.extractLsb' 0 12) ∧
    (∀ e ∈ [Exc.int, .ibe, .dbe, .sys, .bp, .ri, .ov, .cpu 0, .cpu 1, .cpu 2, .cpu 3],
      (s.raise e).cp0.badVAddr = s.cp0.badVAddr ∧ (s.raise e).cp0.context = s.cp0.context ∧ (s.raise e).cp0.entryHi = s.cp0.entryHi)

/-- The vectors (R467, R468): a TLB refill of a kuseg address has its own; BEV selects the boot ROM. -/
def Obligations.ExceptionVectors : Prop :=
  ∀ (s : State) (e : Exc) (va : Word), StatusSettled s →
    let bev := s.cp0.status.getLsbD 22
    (va.getLsbD 31 = false → ∀ f ∈ [Exc.tlbl va true, .tlbs va true], (s.raise f).pc = if bev then 0xBFC00100 else 0x80000000) ∧
    ((∀ v, v.getLsbD 31 = false → e ≠ .tlbl v true ∧ e ≠ .tlbs v true) → (s.raise e).pc = if bev then 0xBFC00180 else 0x80000080)

/-- `rfe` pops the mode stack: Status[3:0] takes Status[5:2], Status[5:4] and everything else stay (R327). -/
def Obligations.ReturnFromException : Prop :=
  ∀ s : State, s.cop0Usable = true →
    ∃ st, ChangesCp0 .rfe s { s.cp0 with status := st } ∧ st.extractLsb' 0 4 = s.cp0.status.extractLsb' 2 4 ∧
      st.extractLsb' 4 28 = s.cp0.status.extractLsb' 4 28

/-- The return undoes the entry: after an exception, `rfe` restores the current and the previous mode and interrupt enable (R465, R327,
R481). -/
def Obligations.ReturnUndoesEntry : Prop :=
  ∀ (s : State) (e : Exc),
    (s.raise e).returnMode.cp0.status.extractLsb' 0 4 = s.cp0.status.extractLsb' 0 4 ∧
    (s.raise e).cp0.status.getLsbD 1 = false ∧ (s.raise e).cp0.status.getLsbD 0 = false

/-- With its core at an instruction boundary and no NMI pending, the machine takes an interrupt before the next fetch exactly when IEc is set
and an enabled input is asserted (R474); the inputs are the write bus error, IRQLOW and IRQHIGH and the two software bits (R56, R473), and
IP[3], IP[5] and IP[7] never count (the spec's own decision D9). -/
def Obligations.InterruptTaken : Prop :=
  ∀ s : State, StatusSettled s → s.agenda = [] → s.dev.coreRuns = true → s.pending = .none → s.dev.intr.nmi = false →
    let im (k : Nat) : Bool := s.cp0.status.getLsbD (8 + k)
    let asserted : Prop :=
      (s.cp0.sw.getLsbD 0 = true ∧ im 0 = true) ∨ (s.cp0.sw.getLsbD 1 = true ∧ im 1 = true) ∨
      (s.dev.biu.wrBusErr = true ∧ im 2 = true) ∨ (s.dev.intr.irqLow = true ∧ im 4 = true) ∨ (s.dev.intr.irqHigh = true ∧ im 6 = true)
    (s.cp0.status.getLsbD 0 = true ∧ asserted → step s = .next (s.raise .int)) ∧
    (¬ (s.cp0.status.getLsbD 0 = true ∧ asserted) → step s = s.fetchExec)

/-- A pending NMI is taken first: the reset vector, kernel mode, interrupts off, and the general registers, HI, LO, the TLB and memory are
unchanged (R476, D34). -/
def Obligations.NmiTaken : Prop :=
  ∀ s : State, s.agenda = [] → s.dev.coreRuns = true → s.pending = .none → s.dev.intr.nmi = true →
    ∃ t, step s = .next t ∧ t.pc = 0xBFC00000 ∧ t.npc = 0xBFC00004 ∧ t.ds = false ∧ t.cp0.status.getLsbD 1 = false ∧
      t.cp0.status.getLsbD 0 = false ∧ KeepsRegs s t ∧ KeepsAcc s t ∧ t.tlb = s.tlb ∧ (∀ a, t.mem.read a = s.mem.read a)

/-! ## Coprocessors -/

/-- In user mode with CU0 clear every coprocessor 0 instruction raises Coprocessor Unusable with CE = 0 (R320); that `deret` is checked like
the others is the model's deduction (R294; R291, log entries 30 and 31). -/
def Obligations.Coprocessor0Unusable : Prop :=
  ∀ (s : State) (rt rd : Reg), s.cop0Usable = false →
    ∀ i ∈ [Instr.mfc0 rt rd, .mtc0 rt rd, .tlbp, .tlbr, .tlbwi, .tlbwr, .rfe, .deret], exec i s = .next (s.raise (.cpu 0))

/-- The values that `mfc0` reads (R321); Random is one of 8 to 31, and 31 right after reset (R37). -/
def Obligations.Mfc0Values : Prop :=
  ∀ (s : State) (rt : Reg), s.cop0Usable = true → NoHazards s →
    WritesOnly (.mfc0 rt 0) s rt s.cp0.index ∧ WritesOnly (.mfc0 rt 2) s rt s.cp0.entryLo ∧
    WritesOnly (.mfc0 rt 4) s rt s.cp0.context ∧ WritesOnly (.mfc0 rt 8) s rt s.cp0.badVAddr ∧
    WritesOnly (.mfc0 rt 10) s rt s.cp0.entryHi ∧ WritesOnly (.mfc0 rt 12) s rt s.cp0.status ∧
    WritesOnly (.mfc0 rt 13) s rt
      (BitVec.ofBool s.cp0.bd ++ 0#1 ++ s.cp0.ce ++ 0#12 ++ s.ip ++ 0#1 ++ s.cp0.exc ++ 0#2) ∧
    WritesOnly (.mfc0 rt 14) s rt s.cp0.epc ∧ WritesOnly (.mfc0 rt 15) s rt Config.pridValue ∧
    (∃ r : BitVec 5, 8 ≤ r.toNat ∧ (s.fresh = true → r = 31) ∧ WritesOnly (.mfc0 rt 1) s rt (0#19 ++ r ++ 0#8))

/-- What `mtc0` writes: the writable bits of Index, EntryLo, Context, EntryHi, Status and Cause, and nothing of Random, BadVAddr, EPC and
PRId (R326). That Index.P is unchanged is the spec's own decision D5, that Status bits 25 and 20:16 are stored its decision D7. -/
def Obligations.Mtc0Writes : Prop :=
  ∀ (s : State) (rt : Reg), s.cop0Usable = true →
    let v := s.opReg rt
    let c := s.cp0
    let sel (m old : Word) : Word := (old &&& ~~~m) ||| (v &&& m)
    ChangesCp0 (.mtc0 rt 0) s { c with index := sel 0x00001F00 c.index } ∧
    ChangesCp0 (.mtc0 rt 2) s { c with entryLo := sel 0xFFFFFF00 c.entryLo } ∧
    ChangesCp0 (.mtc0 rt 4) s { c with context := sel 0xFFE00000 c.context } ∧
    ChangesCp0 (.mtc0 rt 10) s { c with entryHi := sel 0xFFFFFFC0 c.entryHi } ∧
    ChangesCp0 (.mtc0 rt 12) s { c with status := sel 0xF25FFF3F c.status } ∧
    ChangesCp0 (.mtc0 rt 13) s { c with sw := v.extractLsb' 8 2 } ∧
    (∀ rd ∈ [1#5, 8#5, 14#5, 15#5], ChangesCp0 (.mtc0 rt rd) s c)

/-- The TLB writes: `tlbwi` the entry that Index names, `tlbwr` one of the entries 8 to 31, with the fields of EntryHi and EntryLo; the
other 31 entries stay (R324, R325). -/
def Obligations.TlbWrites : Prop :=
  ∀ s : State, s.cop0Usable = true → NoHazards s →
    let hi := s.cp0.entryHi
    let lo := s.cp0.entryLo
    let e : TlbEntry :=
      { vpn := hi.extractLsb' 12 20, pid := hi.extractLsb' 6 6, pfn := lo.extractLsb' 12 20, n := lo.getLsbD 11, d := lo.getLsbD 10,
        v := lo.getLsbD 9, g := lo.getLsbD 8 }
    ChangesTlb .tlbwi s (s.cp0.index.extractLsb' 8 5) e ∧ ∃ r : BitVec 5, 8 ≤ r.toNat ∧ ChangesTlb .tlbwr s r e

/-- `tlbr` loads EntryHi and EntryLo with the entry that Index names (R323). -/
def Obligations.TlbReads : Prop :=
  ∀ s : State, s.cop0Usable = true → NoHazards s →
    let e := s.tlb[(s.cp0.index.extractLsb' 8 5).toNat]'(s.cp0.index.extractLsb' 8 5).isLt
    ChangesCp0 .tlbr s
      { s.cp0 with
        entryHi := e.vpn ++ e.pid ++ 0#6
        entryLo := e.pfn ++ BitVec.ofBool e.n ++ BitVec.ofBool e.d ++ BitVec.ofBool e.v ++ BitVec.ofBool e.g ++ 0#8 }

/-- `tlbp`: with a matching entry P is 0 and Index is a matching entry; without one P is 1 (R322). -/
def Obligations.TlbProbes : Prop :=
  ∀ s : State, s.cop0Usable = true → NoHazards s →
    let hit (k : BitVec 5) : Prop :=
      let e := s.tlb[k.toNat]'k.isLt
      e.vpn = s.cp0.entryHi.extractLsb' 12 20 ∧ (e.g = true ∨ e.pid = s.cp0.entryHi.extractLsb' 6 6)
    ∃ x : Word, ChangesCp0 .tlbp s { s.cp0 with index := x } ∧ x &&& 0x7FFFE0FF = 0 ∧
      (if x.getLsbD 31 then ∀ k, ¬ hit k else hit (x.extractLsb' 8 5))

/-- A TLB entry written with `tlbwi` is read back by `tlbr`, with EntryHi and EntryLo as they were: at any later time without hazards at which
coprocessor 0 and the TLB are still the same; directly after it with the new entry or, within the hazard window, with the old one (R1082, the
model's choice, log entry 12). -/
def Obligations.TlbWriteThenRead : Prop :=
  ∀ s : State, s.cp0.Inv → s.cop0Usable = true → NoHazards s →
    let k := s.cp0.index.extractLsb' 8 5
    let old := s.tlb[k.toNat]'k.isLt
    ∃ t, exec .tlbwi s = .next t ∧ t.cp0 = s.cp0 ∧
      (∀ t' : State, t'.cp0 = t.cp0 → t'.tlb = t.tlb → t'.cop0Usable = true → NoHazards t' →
        ∃ u, exec .tlbr t' = .next u ∧ u.cp0 = s.cp0 ∧ u.tlb = t.tlb) ∧
      ∃ u, exec .tlbr t = .next u ∧ u.tlb = t.tlb ∧
        (u.cp0 = s.cp0 ∨
          (s.board.hazardSlots ≠ 0 ∧
            u.cp0 = { s.cp0 with
              entryHi := old.vpn ++ old.pid ++ 0#6
              entryLo := old.pfn ++ BitVec.ofBool old.n ++ BitVec.ofBool old.d ++ BitVec.ofBool old.v ++ BitVec.ofBool old.g ++ 0#8 }))

/-- The coprocessor 1 to 3 operations raise Coprocessor Unusable with CE = z when CUz is 0 (R446), and stop when it is 1: no coprocessor is
described (R442 to R445, R449). That the likely branches are checked before they stop (R291) is the model's deduction from R294 (log entries 30
and 31). -/
def Obligations.CoprocessorOperations : Prop :=
  ∀ (s : State) (rt rd : Reg) (imm : BitVec 16) (f : BitVec 25),
    let all (z : Nat) (is : List Instr) (r : Refusal) : Prop :=
      ∀ i ∈ is, (s.copUsable z = false → exec i s = .next (s.raise (.cpu (BitVec.ofNat 2 z)))) ∧
        (s.copUsable z = true → exec i s = .refused r)
    all 1 [.mfc1 rt rd, .cfc1 rt rd, .mtc1 rt rd, .ctc1 rt rd, .cop1 f] .coprocessorAbsent ∧
    all 2 [.mfc2 rt rd, .cfc2 rt rd, .mtc2 rt rd, .ctc2 rt rd, .cop2 f] .coprocessorAbsent ∧
    all 3 [.mfc3 rt rd, .cfc3 rt rd, .mtc3 rt rd, .ctc3 rt rd, .cop3 f] .coprocessorAbsent ∧
    all 1 [.bc1fl imm, .bc1tl imm] .undescribedEncoding ∧ all 2 [.bc2fl imm, .bc2tl imm] .undescribedEncoding ∧
    all 3 [.bc3fl imm, .bc3tl imm] .undescribedEncoding

/-- The encodings whose behaviour is in no source stop under a name of their own (R291, R435); `deret`, and `mfc0` and `mtc0` of a register
number that no rule lists (R321, R326), where coprocessor 0 is usable. -/
def Obligations.UndescribedEncodings : Prop :=
  ∀ (s : State) (rs rt rd : Reg) (imm : BitVec 16) (code : BitVec 20),
    (∀ i ∈ [Instr.cache rs rt imm, .sdbbp code, .lwc0 rs rt imm, .lwc1 rs rt imm, .lwc2 rs rt imm, .lwc3 rs rt imm, .swc0 rs rt imm,
        .swc1 rs rt imm, .swc2 rs rt imm, .swc3 rs rt imm],
      exec i s = .refused .undescribedEncoding) ∧
    (s.cop0Usable = true → exec .deret s = .refused .undescribedEncoding) ∧
    (s.cop0Usable = true → rd ∉ [0#5, 1#5, 2#5, 4#5, 8#5, 10#5, 12#5, 13#5, 14#5, 15#5] →
      exec (.mfc0 rt rd) s = .refused .cp0Register ∧ exec (.mtc0 rt rd) s = .refused .cp0Register)

/-! ## Translation -/

/-- The unmapped segments: kseg0 and kseg1 reach the first 512 Mbytes, cached and uncached; the reserved area is mapped one to one (R106,
R111). -/
def Obligations.UnmappedSegments : Prop :=
  ∀ (s : State) (k : AccessKind) (va : Word), StatusSettled s → s.cp0.status.getLsbD 1 = false →
    (0x80000000 ≤ va.toNat ∧ va.toNat < 0xA0000000 → s.translate k va = .ok (va - 0x80000000, true) s) ∧
    (0xA0000000 ≤ va.toNat ∧ va.toNat < 0xC0000000 → s.translate k va = .ok (va - 0xA0000000, false) s) ∧
    (0xFF000000 ≤ va.toNat ∧ va.toNat < 0xFFFF0000 → s.translate k va = .ok (va, false) s)

/-- Translation of kuseg and kseg2 with at most one matching entry (R110): a refill without one; invalid before modified; else the page
frame and the offset, uncached when N is set. Refill and invalid are TLBS for a store and TLBL for a load or a fetch. -/
def Obligations.MappedTranslation : Prop :=
  ∀ (s : State) (k : AccessKind) (va : Word), NoHazards s →
    (va.getLsbD 31 = false ∨
      (s.cp0.status.getLsbD 1 = false ∧ 0xC0000000 ≤ va.toNat ∧ (va.toNat < 0xFF000000 ∨ 0xFFFF0000 ≤ va.toNat))) →
    let entry (n : BitVec 5) : TlbEntry := s.tlb[n.toNat]'n.isLt
    let hit (n : BitVec 5) : Prop :=
      (entry n).vpn = va.extractLsb' 12 20 ∧ ((entry n).g = true ∨ (entry n).pid = s.cp0.entryHi.extractLsb' 6 6)
    let tlbFault (refill : Bool) : Exc := if k = .store then .tlbs va refill else .tlbl va refill
    ((∀ n, ¬ hit n) → s.translate k va = .exc (tlbFault true) s) ∧
    (∀ n, hit n → (∀ m, hit m → m = n) →
      s.translate k va =
        if (entry n).v = false then .exc (tlbFault false) s
        else if k = .store ∧ (entry n).d = false then .exc (.mod va) s
        else .ok ((entry n).pfn ++ va.extractLsb' 0 12, !(entry n).n) s)

/-! ## The bus and the modules -/

/-- The four images of a bank reach the same cell (R187). -/
def Obligations.BankImages : Prop :=
  ∀ (b : Board) (mc0 mc3 : Word) (pa : Nat), pa < 0x04000000 → mc0.getLsbD 20 = false →
    let at' (p : Nat) : Option (Nat × Attach) := cellOf b (regionOf mc0 mc3 p) p
    at' (pa + 0x04000000) = at' pa ∧ at' (pa + 0x40000000) = at' pa ∧ at' (pa + 0x44000000) = at' pa ∧ (at' pa).isSome

/-- A reserved or non-enabled location: with the watch dog a read ends in the bus error exception and a write sets WRBUSERRINT; without it
the access waits, now and whenever it is tried again (R188, R242, U-BIUHANG). Nothing outside the modules changes. -/
def Obligations.SilentLocations : Prop :=
  ∀ (s : State) (e : WbEntry) (be : BitVec 4) (x : Exc), s.target e.pa = .ok .silent → s.dev.biu.mc4.getLsbD 27 = false →
    s.dev.biu.held = none → s.dev.biu.turn ≠ .over → s.dev.granted = false →
    if s.dev.biu.mc4.getLsbD 24 then
      (∃ t, s.busRead .core e.pa be x = .exc x t ∧ t = { s with dev := t.dev }) ∧
      (∃ t, s.busWrite e = .ok () t ∧ t.dev.biu.wrBusErr = true ∧ t = { s with dev := t.dev })
    else
      (∃ t, s.busRead .core e.pa be x = .wait t ∧ t.busRead .core e.pa be x = .wait t ∧ t = { s with dev := t.dev }) ∧
      (∃ t, s.busWrite e = .wait t ∧ t.busWrite e = .wait t ∧ t = { s with dev := t.dev })

/-- A read or write transaction of anything but a function register ends Memory Power Down and leaves the other bits of Memory Configuration
4 alone; one of a function register leaves all of them alone, but for a write of that register itself (R243, D26). -/
def Obligations.MemoryPowerDown : Prop :=
  ∀ s : State, s.dev.biu.held = none →
    let wakes (pa : Word) (t : State) : Prop :=
      (s.isRegister pa = false → t.dev.biu.mc4.getLsbD 16 = false ∧ ∀ k, k ≠ 16 → t.dev.biu.mc4.getLsbD k = s.dev.biu.mc4.getLsbD k) ∧
      (s.isRegister pa = true → s.target pa ≠ .ok (.register 0x010) → t.dev.biu.mc4 = s.dev.biu.mc4)
    (∀ (u : BusUser) (pa w : Word) (be : BitVec 4) (x : Exc) (t : State),
      s.busRead u pa be x = .ok w t → wakes pa t ∧ (s.isRegister pa = true → t.dev.biu.mc4 = s.dev.biu.mc4)) ∧
    (∀ (e : WbEntry) (t : State), s.busWrite e = .ok () t → wakes e.pa t)

/-- The Interrupt Module (R633, R635, R636, R638, R639, R647): a latch is set whether or not it is enabled; a write clears exactly the bits
that are 1 in it; IRQLOW is asserted exactly when GLOBALEN is set and some latch is set with its enable; a high priority signal is the OR of
its latches, PRIORITYMASK passes or blocks it, IRQHIGH is asserted exactly when GLOBALEN is set and some signal passes; INTVECT is the
highest level that is pending and masked in, and 0 when none is. That GLOBALEN gates IRQHIGH too is the spec's own decision D29 (R639), and that
the signals come from the latches and not from the enables its decision D30 (R638). -/
def Obligations.InterruptModule : Prop :=
  (∀ (i : Intr) (n k : Nat) (v : Word), 1 ≤ n → n ≤ 5 → k < 32 →
    let latch (x : Intr) : Word := if n = 1 then x.st1 else if n = 2 then x.st2 else if n = 3 then x.st3 else if n = 4 then x.st4 else x.st5
    (latch (i.set n v)).getLsbD k = ((latch i).getLsbD k || v.getLsbD k) ∧
    (latch (i.clear n v)).getLsbD k = ((latch i).getLsbD k && !v.getLsbD k) ∧
    (i.irqLow = true ↔ i.en6.getLsbD 18 = true ∧ ∃ j < 32, (i.st1.getLsbD j = true ∧ i.en1.getLsbD j = true) ∨
      (i.st2.getLsbD j = true ∧ i.en2.getLsbD j = true) ∨ (i.st3.getLsbD j = true ∧ i.en3.getLsbD j = true) ∨
      (i.st4.getLsbD j = true ∧ i.en4.getLsbD j = true) ∨ (i.st5.getLsbD j = true ∧ i.en5.getLsbD j = true))) ∧
  (∀ i : Intr,
    let high (k : Nat) : Bool := i.highRaw.getLsbD k
    let some1 (ks : List Nat) : Bool := ks.any i.st1.getLsbD
    let some2 (ks : List Nat) : Bool := ks.any i.st2.getLsbD
    let some3 (ks : List Nat) : Bool := ks.any i.st3.getLsbD
    let some4 (ks : List Nat) : Bool := ks.any i.st4.getLsbD
    let some5 (ks : List Nat) : Bool := ks.any i.st5.getLsbD
    high 0 = false ∧ high 1 = some5 [0, 7] ∧ high 2 = some1 [27] ∧ high 3 = some1 [17] ∧ high 4 = some1 [18] ∧ high 5 = some2 [5] ∧
    high 6 = (some4 [0, 1] || some5 [5, 6]) ∧ high 7 = some4 [16, 17, 18, 19] ∧ high 8 = (some3 [0, 1] || some5 [12, 13]) ∧
    high 9 = some3 [16, 17, 18, 19] ∧ high 10 = some2 [21] ∧ high 11 = some2 [31] ∧ high 12 = some2 [2, 3] ∧ high 13 = some5 [29] ∧
    high 14 = some5 [30] ∧ high 15 = some5 [24, 25] ∧
    (∀ k < 16, i.highMasked.getLsbD k = (high k && i.en6.getLsbD k)) ∧
    (i.irqHigh = true ↔ i.en6.getLsbD 18 = true ∧ ∃ k < 16, i.highMasked.getLsbD k = true) ∧
    (∀ k < 16, i.highMasked.getLsbD k = true → k ≤ i.vector.toNat) ∧
    (i.highMasked ≠ 0 → i.highMasked.getLsbD i.vector.toNat = true) ∧ (i.highMasked = 0 → i.vector = 0))

/-- One clock of the periodic timer (R923): while it is enabled and not frozen it counts down, and from 0 it reloads its value and latches
PERINT. -/
def Obligations.PeriodicTimer : Prop :=
  ∀ d : Dev, d.timer.ctl.getLsbD 4 = true → d.timer.ctl.getLsbD 5 = false →
    let e := d.periodicClock
    (d.timer.perCnt = 0 → e.timer.perCnt = d.timer.perVal ∧ e.intr.st5.getLsbD 29 = true) ∧
    (d.timer.perCnt ≠ 0 → e.timer.perCnt.toNat + 1 = d.timer.perCnt.toNat ∧ e.intr = d.intr)

/-! ## Reset and the invariant -/

/-- What the spec says of the state after reset (R70, R1062, R262, R260, R258, R637): the boot vector, BEV, kernel mode with interrupts
off, Random 31, an empty write buffer, the boot settings of CS0, memory powered down, no interrupt latched, GLOBALEN clear. -/
def Obligations.ResetState : Prop :=
  let s := State.reset
  s.pc = 0xBFC00000 ∧ s.npc = 0xBFC00004 ∧ s.ds = false ∧ s.cp0.status.getLsbD 22 = true ∧ s.cp0.status.getLsbD 21 = false ∧
  s.cp0.status.getLsbD 1 = false ∧ s.cp0.status.getLsbD 0 = false ∧ s.random = 31 ∧ s.wb = [] ∧
  s.dev.biu.mc2.extractLsb' 0 8 = 0xFF#8 ∧ s.dev.biu.mc3.getLsbD 8 = false ∧ s.dev.biu.mc0.getLsbD 0 = s.board.testAiu ∧
  s.dev.biu.mc4.getLsbD 16 = true ∧ s.dev.intr.st1 = 0 ∧ s.dev.intr.st2 = 0 ∧ s.dev.intr.st3 = 0 ∧ s.dev.intr.st4 = 0 ∧ s.dev.intr.st5 = 0 ∧
  s.dev.intr.en6.getLsbD 18 = false

/-- The invariant holds after reset. -/
def Obligations.ResetInvariant : Prop := State.reset.Inv

/-- Every step keeps the invariant, from every state that has it: whatever the agenda does, the memory keeps its canonical form, the write
buffer its four places, and no reserved bit of coprocessor 0 is ever set. -/
def Obligations.StepKeepsInvariant : Prop := ∀ s t : State, s.Inv → step s = .next t → t.Inv

/-- What user mode cannot do (R320, R460): from user mode with CU0 clear, no step of the core changes coprocessor 0 or the TLB but by taking
an exception, an interrupt or an NMI, after which it is in kernel mode at a vector. A step that does neither leaves the premises true for the
next one. -/
def Obligations.UserModeKeepsCoprocessor0 : Prop :=
  ∀ s t : State, s.agenda = [] → StatusSettled s → s.cp0.status.getLsbD 1 = true → s.cp0.status.getLsbD 28 = false → step s = .next t →
    (t.cp0 = s.cp0 ∧ t.tlb = s.tlb ∧ StatusSettled t ∧ t.agenda = []) ∨
    (t.tlb = s.tlb ∧ t.cp0.status.getLsbD 1 = false ∧
      t.pc ∈ [0x80000000#32, 0x80000080#32, 0xBFC00000#32, 0xBFC00100#32, 0xBFC00180#32])
end

