-- ==== Sys2Proof/Laws/Memory.lean ====
section
/-!
SUPPORT. The laws of the memory: a read after a write, the canonical form, the lanes of a word.
-/

namespace Sys2Proof.Machine

/-! ## One byte -/

theorem Mem.read_below (m : Mem) (lo k : Nat) (h : m.wfFrom lo = true) (hk : k < lo) : m.read k = 0 := by
  induction m generalizing lo with
  | nil => rfl
  | cons p m ih =>
    obtain ⟨a, b⟩ := p
    simp only [Mem.wfFrom, Bool.and_eq_true, decide_eq_true_eq] at h
    have : k ≠ a := by omega
    simp only [Mem.read, this, if_false]
    exact ih (a + 1) h.2 (by omega)

theorem Mem.wfFrom_mono (m : Mem) (lo lo' : Nat) (h : m.wfFrom lo = true) (hl : lo' ≤ lo) : m.wfFrom lo' = true := by
  cases m with
  | nil => rfl
  | cons p m =>
    obtain ⟨a, b⟩ := p
    simp only [Mem.wfFrom, Bool.and_eq_true, decide_eq_true_eq] at h ⊢
    exact ⟨⟨by omega, h.1.2⟩, h.2⟩

/-- A write keeps the canonical form. -/
theorem Mem.wfFrom_write (m : Mem) (lo k : Nat) (v : Byte) (h : m.wfFrom lo = true) (hk : lo ≤ k) :
    (m.write k v).wfFrom lo = true := by
  induction m generalizing lo with
  | nil =>
    simp only [Mem.write]
    split <;> simp_all [Mem.wfFrom]
  | cons p m ih =>
    obtain ⟨a, b⟩ := p
    simp only [Mem.wfFrom, Bool.and_eq_true, decide_eq_true_eq, bne_iff_ne, ne_eq] at h
    simp only [Mem.write]
    split
    · split <;> simp_all [Mem.wfFrom]
    · split
      · split
        · exact Mem.wfFrom_mono m _ _ h.2 (by omega)
        · simp_all [Mem.wfFrom]
      · simp only [Mem.wfFrom, Bool.and_eq_true, decide_eq_true_eq, bne_iff_ne, ne_eq]
        exact ⟨h.1, ih (a + 1) h.2 (by omega)⟩

theorem Mem.wf_write (m : Mem) (k : Nat) (v : Byte) (h : m.wf = true) : (m.write k v).wf = true :=
  Mem.wfFrom_write m 0 k v h (Nat.zero_le k)

/-- A read after a write. -/
theorem Mem.read_write_from (m : Mem) (lo k j : Nat) (v : Byte) (h : m.wfFrom lo = true) :
    (m.write k v).read j = if j = k then v else m.read j := by
  induction m generalizing lo with
  | nil =>
    simp only [Mem.write]
    split <;> simp_all [Mem.read]
  | cons p m ih =>
    obtain ⟨a, b⟩ := p
    simp only [Mem.wfFrom, Bool.and_eq_true, decide_eq_true_eq] at h
    simp only [Mem.write]
    split
    · rename_i hka
      by_cases hj : j = k
      · subst hj
        have h0 : Mem.read ((a, b) :: m) j = 0 := by
          refine Mem.read_below ((a, b) :: m) a j ?_ hka
          simp only [Mem.wfFrom, Bool.and_eq_true, decide_eq_true_eq]
          exact ⟨⟨Nat.le_refl a, h.1.2⟩, h.2⟩
        split
        · rename_i hv; simp [h0, hv]
        · simp [Mem.read]
      · split <;> simp [Mem.read, hj]
    · split
      · rename_i hka
        subst hka
        by_cases hj : j = k
        · subst hj
          split
          · rename_i hv
            simp [hv, Mem.read_below m (j + 1) j h.2 (Nat.lt_succ_self j)]
          · simp [Mem.read]
        · split <;> simp [Mem.read, hj]
      · rename_i h1 h2
        simp only [Mem.read]
        by_cases hja : j = a
        · subst hja
          have : ¬ j = k := fun e => h2 e.symm
          simp [this]
        · simp only [hja, if_false]
          exact ih (a + 1) h.2

theorem Mem.read_write (m : Mem) (k j : Nat) (v : Byte) (h : m.wf = true) :
    (m.write k v).read j = if j = k then v else m.read j := Mem.read_write_from m 0 k j v h

/-! ## The lanes of a word -/

theorem Mem.wf_writeLane (m : Mem) (be : Bool) (key : Nat) (d : Word) (en : BitVec 4) (l : Nat) (h : m.wf = true) :
    (m.writeLane be key d en l).wf = true := by
  unfold Mem.writeLane
  split
  · exact Mem.wf_write m _ _ h
  · exact h

/-- A write of lanes keeps the canonical form. -/
theorem Mem.wf_writeLanes (m : Mem) (be : Bool) (key : Nat) (d : Word) (en : BitVec 4) (h : m.wf = true) :
    (m.writeLanes be key d en).wf = true := by
  unfold Mem.writeLanes
  exact Mem.wf_writeLane _ _ _ _ _ _ (Mem.wf_writeLane _ _ _ _ _ _ (Mem.wf_writeLane _ _ _ _ _ _ (Mem.wf_writeLane _ _ _ _ _ _ h)))

theorem Mem.read_writeLane (m : Mem) (be : Bool) (key : Nat) (d : Word) (en : BitVec 4) (l j : Nat) (h : m.wf = true) :
    (m.writeLane be key d en l).read j =
      if en.getLsbD l = true ∧ j = laneCell be key l then laneOf d l else m.read j := by
  unfold Mem.writeLane
  split
  · rename_i hl; simp [Mem.read_write m _ _ _ h, hl]
  · rename_i hl; simp [hl]

/-- The lane of a cell inside a word. -/
theorem laneCell_eq_iff (be : Bool) (key l j : Nat) (hl : l < 4) :
    j = laneCell be key l ↔ (key ≤ j ∧ j < key + 4 ∧ l = if be then 3 - (j - key) else j - key) := by
  unfold laneCell
  cases be <;> simp <;> omega

/-- A write of lanes: each enabled lane of the word is stored at its cell. -/
theorem Mem.read_writeLanes_lane (m : Mem) (be : Bool) (key : Nat) (d : Word) (en : BitVec 4) (l : Nat) (hl : l < 4)
    (h : m.wf = true) :
    (m.writeLanes be key d en).read (laneCell be key l) = if en.getLsbD l then laneOf d l else m.read (laneCell be key l) := by
  have h0 := Mem.wf_writeLane m be key d en 0 h
  have h1 := Mem.wf_writeLane _ be key d en 1 h0
  have h2 := Mem.wf_writeLane _ be key d en 2 h1
  unfold Mem.writeLanes
  rw [Mem.read_writeLane _ _ _ _ _ _ _ h2, Mem.read_writeLane _ _ _ _ _ _ _ h1, Mem.read_writeLane _ _ _ _ _ _ _ h0,
    Mem.read_writeLane _ _ _ _ _ _ _ h]
  have e : ∀ a b : Nat, a < 4 → b < 4 → (laneCell be key a = laneCell be key b ↔ a = b) := by
    intro a b ha hb; unfold laneCell; cases be <;> simp <;> omega
  simp only [e l 3 hl (by omega), e l 2 hl (by omega), e l 1 hl (by omega), e l 0 hl (by omega)]
  have : l = 0 ∨ l = 1 ∨ l = 2 ∨ l = 3 := by omega
  rcases this with rfl | rfl | rfl | rfl <;> simp

/-- A write of lanes: a cell outside the word keeps its byte. -/
theorem Mem.read_writeLanes_outside (m : Mem) (be : Bool) (key : Nat) (d : Word) (en : BitVec 4) (j : Nat)
    (hj : j < key ∨ key + 4 ≤ j) (h : m.wf = true) : (m.writeLanes be key d en).read j = m.read j := by
  have h0 := Mem.wf_writeLane m be key d en 0 h
  have h1 := Mem.wf_writeLane _ be key d en 1 h0
  have h2 := Mem.wf_writeLane _ be key d en 2 h1
  unfold Mem.writeLanes
  rw [Mem.read_writeLane _ _ _ _ _ _ _ h2, Mem.read_writeLane _ _ _ _ _ _ _ h1, Mem.read_writeLane _ _ _ _ _ _ _ h0,
    Mem.read_writeLane _ _ _ _ _ _ _ h]
  have e : ∀ l : Nat, l < 4 → ¬ j = laneCell be key l := by
    intro l hl; unfold laneCell; cases be <;> simp <;> omega
  simp [e 0 (by omega), e 1 (by omega), e 2 (by omega), e 3 (by omega)]

/-- The lanes of a word put together. -/
theorem ofLanes_laneOf (w : Word) : ofLanes (laneOf w 0) (laneOf w 1) (laneOf w 2) (laneOf w 3) = w := by
  apply BitVec.eq_of_getLsbD_eq
  intro i hi
  simp only [ofLanes, laneOf, BitVec.getLsbD_append, BitVec.getLsbD_extractLsb']
  interval_cases i <;> rfl

/-- A word read after a whole word is written. -/
theorem Mem.readWord_writeLanes (m : Mem) (be : Bool) (key : Nat) (d : Word) (h : m.wf = true) :
    (m.writeLanes be key d 0xF).readWord be key = d := by
  unfold Mem.readWord
  simp only [Mem.read_writeLanes_lane m be key d 0xF _ (by omega : (0 : Nat) < 4) h,
    Mem.read_writeLanes_lane m be key d 0xF _ (by omega : (1 : Nat) < 4) h,
    Mem.read_writeLanes_lane m be key d 0xF _ (by omega : (2 : Nat) < 4) h,
    Mem.read_writeLanes_lane m be key d 0xF _ (by omega : (3 : Nat) < 4) h]
  exact ofLanes_laneOf d

/-- The memory after a store of lanes. -/
theorem State.storeCells_wf (s : State) (key : Nat) (d : Word) (en : BitVec 4) (h : s.mem.wf = true) :
    (s.storeCells key d en).mem.wf = true := Mem.wf_writeLanes s.mem _ key d en h

/-- The memory of the reset state has the canonical form. -/
theorem State.reset_mem_wf : State.reset.mem.wf = true := rfl

end Sys2Proof.Machine
end

