-- ==== Sys2Proof/Laws/Settle.lean ====
section
/-!
SUPPORT. What the modules do of themselves leaves the Bus Interface Unit alone: one lemma for each part of `Dev.settle`. What starting and
ending a transaction make of the Bus Interface Unit. The duty of a dithered shade.
-/

namespace Sys2Proof.Machine

/-! ## Transfers -/

@[simp] theorem Dev.mbusSettle_biu (d : Dev) : d.mbusSettle.biu = d.biu := by unfold Dev.mbusSettle; rfl

@[simp] theorem Dev.spiSettle_biu (d : Dev) : d.spiSettle.biu = d.biu := by unfold Dev.spiSettle; rfl

@[simp] theorem Dev.withUart_biu (d : Dev) (b : Bool) (u : Uart) (i : Intr) : (d.withUart b u i).biu = d.biu := by
  unfold Dev.withUart; split <;> rfl

@[simp] theorem Dev.uartSettle_biu (d : Dev) (b : Bool) : (d.uartSettle b).biu = d.biu := by
  unfold Dev.uartSettle
  exact Dev.withUart_biu ..

theorem Dev.transfers_biu (d : Dev) : d.transfers.biu = d.biu := by unfold Dev.transfers; split <;> simp

/-! ## Pins -/

@[simp] theorem Dev.mbusRxBit_biu (d : Dev) (b : Bool) : (d.mbusRxBit b).biu = d.biu := by
  unfold Dev.mbusRxBit Dev.mbusTake
  dsimp only
  split <;> rfl

@[simp] theorem Dev.mbusDetect_biu (d : Dev) (c e : Bool) : (d.mbusDetect c e).biu = d.biu := by
  unfold Dev.mbusDetect
  rfl

@[simp] theorem Dev.mbusLines_biu (d : Dev) : d.mbusLines.biu = d.biu := by
  unfold Dev.mbusLines
  dsimp only
  (repeat' split) <;> simp

theorem Dev.grantBus_biu (d : Dev) : d.grantBus.biu = d.biu := rfl

theorem Dev.inputs_biu (d : Dev) : d.inputs.biu = d.biu := by
  unfold Dev.inputs
  rw [Dev.mbusLines_biu]
  rfl

/-! ## The clocks that pins carry -/

@[simp] theorem Dev.sibStatus_biu (d : Dev) (b : Bool) (w : BitVec 64) : (d.sibStatus b w).biu = d.biu := by unfold Dev.sibStatus; rfl

@[simp] theorem Dev.sibStart_biu (d : Dev) (b : Bool) : (d.sibStart b).biu = d.biu := by unfold Dev.sibStart; rfl

@[simp] theorem Dev.sibEnd_biu (d : Dev) (b : Bool) : (d.sibEnd b).biu = d.biu := by
  unfold Dev.sibEnd
  dsimp only
  split
  · exact Dev.sibStatus_biu d b d.sib.shift
  · rfl

@[simp] theorem Dev.sibRise_biu (d : Dev) : d.sibRise.biu = d.biu := by
  unfold Dev.sibRise
  dsimp only
  (repeat' split) <;> simp

@[simp] theorem Dev.sibFall_biu (d : Dev) (b : Bool) : (d.sibFall b).biu = d.biu := by
  unfold Dev.sibFall
  dsimp only
  split <;> simp

@[simp] theorem Dev.sibClock_biu (d : Dev) (b : Bool) : (d.sibClock b).biu = d.biu := by
  unfold Dev.sibClock
  dsimp only
  (repeat' split) <;> simp

@[simp] theorem Dev.chiTxSlot_biu (d : Dev) (w : Word) : (d.chiTxSlot w).biu = d.biu := by unfold Dev.chiTxSlot; rfl

@[simp] theorem Dev.chiPush_biu (d : Dev) (w : Word) : (d.chiPush w).biu = d.biu := by
  unfold Dev.chiPush
  dsimp only
  split <;> simp

@[simp] theorem Dev.chiTxEdge_biu (d : Dev) (w : Word) : (d.chiTxEdge w).biu = d.biu := by
  unfold Dev.chiTxEdge
  dsimp only
  (repeat' split) <;> simp

@[simp] theorem Dev.chiRxSlot_biu (d : Dev) : d.chiRxSlot.biu = d.biu := by unfold Dev.chiRxSlot; dsimp only; split <;> rfl

@[simp] theorem Dev.chiSample_biu (d : Dev) (b : Bool) : (d.chiSample b).biu = d.biu := by
  unfold Dev.chiSample
  dsimp only
  split <;> simp

@[simp] theorem Dev.chiRxEdge_biu (d : Dev) (b : Bool) : (d.chiRxEdge b).biu = d.biu := by
  unfold Dev.chiRxEdge
  dsimp only
  (repeat' split) <;> simp

@[simp] theorem Dev.chiHalf_biu (d : Dev) (b : Bool) : (d.chiHalf b).biu = d.biu := by unfold Dev.chiHalf; split <;> rfl

@[simp] theorem Dev.chiClock_biu (d : Dev) (a b c : Bool) (w : Word) : (d.chiClock a b c w).biu = d.biu := by
  unfold Dev.chiClock Dev.chiEdge
  dsimp only
  split <;> simp

theorem Dev.pinClocks_biu (d : Dev) (o n w : Word) : (d.pinClocks o n w).biu = d.biu := by
  unfold Dev.pinClocks
  dsimp only
  (repeat' split) <;> simp

theorem Dev.edges_biu (d : Dev) (w : Word) : (d.edges w).biu = d.biu := by
  unfold Dev.edges
  dsimp only
  rw [Dev.pinClocks_biu]

/-! ## Settling -/

theorem Dev.pinEdges_biu (d : Dev) (w : Word) : (d.pinEdges w).biu = d.biu := by
  simp only [Dev.pinEdges, Dev.edges_biu, Dev.inputs_biu, Dev.grantBus_biu]

theorem Dev.resetHolds_biu (d : Dev) : d.resetHolds.biu = d.biu := by unfold Dev.resetHolds; split <;> rfl

theorem Dev.settlePower_biu (d : Dev) : d.settlePower.biu = d.biu := by unfold Dev.settlePower; split <;> rfl

/-- Settling leaves the Bus Interface Unit alone. -/
theorem Dev.settle_biu (d : Dev) (w : Word) : (d.settle w).biu = d.biu := by
  unfold Dev.settle
  simp only [Dev.settlePower_biu, Dev.resetHolds_biu, Dev.pinEdges_biu, Dev.transfers_biu]

/-! ## Transactions -/

/-- Setting a bit leaves every other bit alone. -/
theorem withBit_other (w : Word) (n k : Nat) (b : Bool) (hk : k ≠ n) : (withBit w n b).getLsbD k = w.getLsbD k := by
  have h1 : (1#32 <<< n).getLsbD k = false := by
    rw [BitVec.getLsbD_shiftLeft]
    by_cases h : k < n
    · simp [h]
    · have : k - n ≠ 0 := by omega
      simp [BitVec.getLsbD_one, this]
  by_cases h : k < 32
  · cases b <;> simp only [withBit, bitMask, Bool.false_eq_true, if_false, if_true, BitVec.getLsbD_and, BitVec.getLsbD_or,
      BitVec.getLsbD_not, h1, h, decide_true, Bool.not_false, Bool.and_true, Bool.or_false]
  · simp [BitVec.getLsbD_of_ge, Nat.le_of_not_lt h]

/-- Starting a transaction leaves every bit of Memory Configuration 4 but MEMPOWERDOWN alone (R243). -/
theorem Biu.start_mc4 (b : Biu) (u : BusUser) (t : Target) (k : Nat) (hk : k ≠ 16) : (b.start u t).mc4.getLsbD k = b.mc4.getLsbD k := by
  unfold Biu.start
  dsimp only
  generalize (b.powerDown && _) = y
  cases y
  · rfl
  · rw [if_pos rfl]
    exact withBit_other _ _ _ _ hk

/-- The Bus Interface Unit with a transaction started, and with it ended. -/
theorem State.startBus_biu (s : State) (u : BusUser) (t : Target) (be : BitVec 4) (w : Bool) :
    (s.startBus u t be w).dev.biu = s.dev.biu.start u t := by
  simp only [State.startBus]
  split
  · rfl
  · rw [Dev.settle_biu]
    unfold Dev.strobe
    dsimp only
    split <;> rfl

theorem State.endBus_biu (s : State) : s.endBus.dev.biu = { s.dev.biu with held := none, heeded := none, turn := s.dev.biu.turn.next } := by
  simp only [State.endBus]
  split
  · rw [Dev.settle_biu]
  · rfl

/-! ## Dithering -/

/-- Whatever the choice, a shade is on in as many frames of its period as its duty says (R1012). -/
theorem dutyOn_count (shade : BitVec 4) (choice : Nat) :
    ((List.range (dutyOf shade).2).filter (dutyOn shade choice)).length = (dutyOf shade).1 := by
  have hle : (dutyOf shade).1 ≤ (dutyOf shade).2 := by revert shade; decide
  generalize hn : (dutyOf shade).1 = n at hle ⊢
  generalize hp : (dutyOf shade).2 = p at hle ⊢
  let sets := (List.range p).sublistsLen n
  have hl : 0 < sets.length := by rw [List.length_sublistsLen, List.length_range]; exact Nat.choose_pos hle
  let l := sets.getD (choice % sets.length) []
  have hm : l ∈ sets := by
    have h := Nat.mod_lt choice hl
    simp only [l, List.getD_eq_getElem _ _ h]
    exact List.getElem_mem h
  obtain ⟨hs, hlen⟩ := List.mem_sublistsLen.1 hm
  have hf : dutyOn shade choice = fun f => l.contains f := by funext f; simp only [dutyOn, hn, hp]; rfl
  have hd : l.Nodup := hs.nodup List.nodup_range
  rw [hf, ← hlen]
  refine List.Perm.length_eq ((List.perm_ext_iff_of_nodup (List.nodup_range.filter _) hd).2 fun f => ?_)
  simp only [List.mem_filter, List.contains_iff_mem]
  exact ⟨fun h => by simpa using h.2, fun h => ⟨hs.subset h, by simpa using h⟩⟩
end Sys2Proof.Machine
end

