-- ==== Sys2Proof/Laws/State.lean ====
section
/-!
SUPPORT. What each update of the state does to each field: one lemma per field and update, so that no proof unfolds an update.
-/

namespace Sys2Proof.Machine

/-! ## `State.setReg` -/

@[simp] theorem State.setReg_hi (s : State) (r : Reg) (v : Word) : (s.setReg r v).hi = s.hi := rfl
@[simp] theorem State.setReg_lo (s : State) (r : Reg) (v : Word) : (s.setReg r v).lo = s.lo := rfl
@[simp] theorem State.setReg_pc (s : State) (r : Reg) (v : Word) : (s.setReg r v).pc = s.pc := rfl
@[simp] theorem State.setReg_npc (s : State) (r : Reg) (v : Word) : (s.setReg r v).npc = s.npc := rfl
@[simp] theorem State.setReg_ds (s : State) (r : Reg) (v : Word) : (s.setReg r v).ds = s.ds := rfl
@[simp] theorem State.setReg_cp0 (s : State) (r : Reg) (v : Word) : (s.setReg r v).cp0 = s.cp0 := rfl
@[simp] theorem State.setReg_tlb (s : State) (r : Reg) (v : Word) : (s.setReg r v).tlb = s.tlb := rfl
@[simp] theorem State.setReg_wb (s : State) (r : Reg) (v : Word) : (s.setReg r v).wb = s.wb := rfl
@[simp] theorem State.setReg_recent (s : State) (r : Reg) (v : Word) : (s.setReg r v).recent = s.recent := rfl
@[simp] theorem State.setReg_icache (s : State) (r : Reg) (v : Word) : (s.setReg r v).icache = s.icache := rfl
@[simp] theorem State.setReg_dcache (s : State) (r : Reg) (v : Word) : (s.setReg r v).dcache = s.dcache := rfl
@[simp] theorem State.setReg_pending (s : State) (r : Reg) (v : Word) : (s.setReg r v).pending = s.pending := rfl
@[simp] theorem State.setReg_fresh (s : State) (r : Reg) (v : Word) : (s.setReg r v).fresh = s.fresh := rfl
@[simp] theorem State.setReg_mem (s : State) (r : Reg) (v : Word) : (s.setReg r v).mem = s.mem := rfl
@[simp] theorem State.setReg_dev (s : State) (r : Reg) (v : Word) : (s.setReg r v).dev = s.dev := rfl
@[simp] theorem State.setReg_board (s : State) (r : Reg) (v : Word) : (s.setReg r v).board = s.board := rfl
@[simp] theorem State.setReg_agenda (s : State) (r : Reg) (v : Word) : (s.setReg r v).agenda = s.agenda := rfl
@[simp] theorem State.setReg_draws (s : State) (r : Reg) (v : Word) : (s.setReg r v).draws = s.draws := rfl

/-! ## `State.setAcc` -/

@[simp] theorem State.setAcc_gpr (s : State) (v : BitVec 64) : (s.setAcc v).gpr = s.gpr := rfl
@[simp] theorem State.setAcc_hi (s : State) (v : BitVec 64) : (s.setAcc v).hi = v.extractLsb' 32 32 := rfl
@[simp] theorem State.setAcc_lo (s : State) (v : BitVec 64) : (s.setAcc v).lo = v.extractLsb' 0 32 := rfl
@[simp] theorem State.setAcc_pc (s : State) (v : BitVec 64) : (s.setAcc v).pc = s.pc := rfl
@[simp] theorem State.setAcc_npc (s : State) (v : BitVec 64) : (s.setAcc v).npc = s.npc := rfl
@[simp] theorem State.setAcc_ds (s : State) (v : BitVec 64) : (s.setAcc v).ds = s.ds := rfl
@[simp] theorem State.setAcc_cp0 (s : State) (v : BitVec 64) : (s.setAcc v).cp0 = s.cp0 := rfl
@[simp] theorem State.setAcc_tlb (s : State) (v : BitVec 64) : (s.setAcc v).tlb = s.tlb := rfl
@[simp] theorem State.setAcc_wb (s : State) (v : BitVec 64) : (s.setAcc v).wb = s.wb := rfl
@[simp] theorem State.setAcc_recent (s : State) (v : BitVec 64) : (s.setAcc v).recent = s.recent := rfl
@[simp] theorem State.setAcc_icache (s : State) (v : BitVec 64) : (s.setAcc v).icache = s.icache := rfl
@[simp] theorem State.setAcc_dcache (s : State) (v : BitVec 64) : (s.setAcc v).dcache = s.dcache := rfl
@[simp] theorem State.setAcc_pending (s : State) (v : BitVec 64) : (s.setAcc v).pending = s.pending := rfl
@[simp] theorem State.setAcc_fresh (s : State) (v : BitVec 64) : (s.setAcc v).fresh = s.fresh := rfl
@[simp] theorem State.setAcc_mem (s : State) (v : BitVec 64) : (s.setAcc v).mem = s.mem := rfl
@[simp] theorem State.setAcc_dev (s : State) (v : BitVec 64) : (s.setAcc v).dev = s.dev := rfl
@[simp] theorem State.setAcc_board (s : State) (v : BitVec 64) : (s.setAcc v).board = s.board := rfl
@[simp] theorem State.setAcc_agenda (s : State) (v : BitVec 64) : (s.setAcc v).agenda = s.agenda := rfl
@[simp] theorem State.setAcc_draws (s : State) (v : BitVec 64) : (s.setAcc v).draws = s.draws := rfl

/-! ## `State.advance` -/

@[simp] theorem State.advance_gpr (s : State) (pc npc : Word) (ds : Bool) (t : Trace) : (s.advance pc npc ds t).gpr = s.gpr := rfl
@[simp] theorem State.advance_hi (s : State) (pc npc : Word) (ds : Bool) (t : Trace) : (s.advance pc npc ds t).hi = s.hi := rfl
@[simp] theorem State.advance_lo (s : State) (pc npc : Word) (ds : Bool) (t : Trace) : (s.advance pc npc ds t).lo = s.lo := rfl
@[simp] theorem State.advance_pc (s : State) (pc npc : Word) (ds : Bool) (t : Trace) : (s.advance pc npc ds t).pc = pc := rfl
@[simp] theorem State.advance_npc (s : State) (pc npc : Word) (ds : Bool) (t : Trace) : (s.advance pc npc ds t).npc = npc := rfl
@[simp] theorem State.advance_ds (s : State) (pc npc : Word) (ds : Bool) (t : Trace) : (s.advance pc npc ds t).ds = ds := rfl
@[simp] theorem State.advance_cp0 (s : State) (pc npc : Word) (ds : Bool) (t : Trace) : (s.advance pc npc ds t).cp0 = s.cp0 := rfl
@[simp] theorem State.advance_tlb (s : State) (pc npc : Word) (ds : Bool) (t : Trace) : (s.advance pc npc ds t).tlb = s.tlb := rfl
@[simp] theorem State.advance_wb (s : State) (pc npc : Word) (ds : Bool) (t : Trace) : (s.advance pc npc ds t).wb = s.wb := rfl
@[simp] theorem State.advance_recent (s : State) (pc npc : Word) (ds : Bool) (t : Trace) : (s.advance pc npc ds t).recent = (t :: s.recent.map Trace.settle).take s.traceLength := rfl
@[simp] theorem State.advance_icache (s : State) (pc npc : Word) (ds : Bool) (t : Trace) : (s.advance pc npc ds t).icache = s.icache := rfl
@[simp] theorem State.advance_dcache (s : State) (pc npc : Word) (ds : Bool) (t : Trace) : (s.advance pc npc ds t).dcache = s.dcache := rfl
@[simp] theorem State.advance_pending (s : State) (pc npc : Word) (ds : Bool) (t : Trace) : (s.advance pc npc ds t).pending = .none := rfl
@[simp] theorem State.advance_fresh (s : State) (pc npc : Word) (ds : Bool) (t : Trace) : (s.advance pc npc ds t).fresh = false := rfl
@[simp] theorem State.advance_mem (s : State) (pc npc : Word) (ds : Bool) (t : Trace) : (s.advance pc npc ds t).mem = s.mem := rfl
@[simp] theorem State.advance_dev (s : State) (pc npc : Word) (ds : Bool) (t : Trace) : (s.advance pc npc ds t).dev = s.dev := rfl
@[simp] theorem State.advance_board (s : State) (pc npc : Word) (ds : Bool) (t : Trace) : (s.advance pc npc ds t).board = s.board := rfl
@[simp] theorem State.advance_agenda (s : State) (pc npc : Word) (ds : Bool) (t : Trace) : (s.advance pc npc ds t).agenda = s.agenda := rfl
@[simp] theorem State.advance_draws (s : State) (pc npc : Word) (ds : Bool) (t : Trace) : (s.advance pc npc ds t).draws = s.draws + 1 := rfl

/-! ## `State.retire` -/

@[simp] theorem State.retire_gpr (s : State) (t : Trace) : (s.retire t).gpr = s.gpr := rfl
@[simp] theorem State.retire_hi (s : State) (t : Trace) : (s.retire t).hi = s.hi := rfl
@[simp] theorem State.retire_lo (s : State) (t : Trace) : (s.retire t).lo = s.lo := rfl
@[simp] theorem State.retire_pc (s : State) (t : Trace) : (s.retire t).pc = s.npc := rfl
@[simp] theorem State.retire_npc (s : State) (t : Trace) : (s.retire t).npc = s.npc + 4 := rfl
@[simp] theorem State.retire_ds (s : State) (t : Trace) : (s.retire t).ds = false := rfl
@[simp] theorem State.retire_cp0 (s : State) (t : Trace) : (s.retire t).cp0 = s.cp0 := rfl
@[simp] theorem State.retire_tlb (s : State) (t : Trace) : (s.retire t).tlb = s.tlb := rfl
@[simp] theorem State.retire_wb (s : State) (t : Trace) : (s.retire t).wb = s.wb := rfl
@[simp] theorem State.retire_recent (s : State) (t : Trace) : (s.retire t).recent = (t :: s.recent.map Trace.settle).take s.traceLength := rfl
@[simp] theorem State.retire_icache (s : State) (t : Trace) : (s.retire t).icache = s.icache := rfl
@[simp] theorem State.retire_dcache (s : State) (t : Trace) : (s.retire t).dcache = s.dcache := rfl
@[simp] theorem State.retire_pending (s : State) (t : Trace) : (s.retire t).pending = .none := rfl
@[simp] theorem State.retire_fresh (s : State) (t : Trace) : (s.retire t).fresh = false := rfl
@[simp] theorem State.retire_mem (s : State) (t : Trace) : (s.retire t).mem = s.mem := rfl
@[simp] theorem State.retire_dev (s : State) (t : Trace) : (s.retire t).dev = s.dev := rfl
@[simp] theorem State.retire_board (s : State) (t : Trace) : (s.retire t).board = s.board := rfl
@[simp] theorem State.retire_agenda (s : State) (t : Trace) : (s.retire t).agenda = s.agenda := rfl
@[simp] theorem State.retire_draws (s : State) (t : Trace) : (s.retire t).draws = s.draws + 1 := rfl

/-! ## `State.jumpTo` -/

@[simp] theorem State.jumpTo_gpr (s : State) (target : Word) : (s.jumpTo target).gpr = s.gpr := rfl
@[simp] theorem State.jumpTo_hi (s : State) (target : Word) : (s.jumpTo target).hi = s.hi := rfl
@[simp] theorem State.jumpTo_lo (s : State) (target : Word) : (s.jumpTo target).lo = s.lo := rfl
@[simp] theorem State.jumpTo_pc (s : State) (target : Word) : (s.jumpTo target).pc = s.npc := rfl
@[simp] theorem State.jumpTo_npc (s : State) (target : Word) : (s.jumpTo target).npc = target := rfl
@[simp] theorem State.jumpTo_ds (s : State) (target : Word) : (s.jumpTo target).ds = true := rfl
@[simp] theorem State.jumpTo_cp0 (s : State) (target : Word) : (s.jumpTo target).cp0 = s.cp0 := rfl
@[simp] theorem State.jumpTo_tlb (s : State) (target : Word) : (s.jumpTo target).tlb = s.tlb := rfl
@[simp] theorem State.jumpTo_wb (s : State) (target : Word) : (s.jumpTo target).wb = s.wb := rfl
@[simp] theorem State.jumpTo_recent (s : State) (target : Word) : (s.jumpTo target).recent = (.plain :: s.recent.map Trace.settle).take s.traceLength := rfl
@[simp] theorem State.jumpTo_icache (s : State) (target : Word) : (s.jumpTo target).icache = s.icache := rfl
@[simp] theorem State.jumpTo_dcache (s : State) (target : Word) : (s.jumpTo target).dcache = s.dcache := rfl
@[simp] theorem State.jumpTo_pending (s : State) (target : Word) : (s.jumpTo target).pending = .none := rfl
@[simp] theorem State.jumpTo_fresh (s : State) (target : Word) : (s.jumpTo target).fresh = false := rfl
@[simp] theorem State.jumpTo_mem (s : State) (target : Word) : (s.jumpTo target).mem = s.mem := rfl
@[simp] theorem State.jumpTo_dev (s : State) (target : Word) : (s.jumpTo target).dev = s.dev := rfl
@[simp] theorem State.jumpTo_board (s : State) (target : Word) : (s.jumpTo target).board = s.board := rfl
@[simp] theorem State.jumpTo_agenda (s : State) (target : Word) : (s.jumpTo target).agenda = s.agenda := rfl
@[simp] theorem State.jumpTo_draws (s : State) (target : Word) : (s.jumpTo target).draws = s.draws + 1 := rfl

/-! ## `State.fallThrough` -/

@[simp] theorem State.fallThrough_gpr (s : State) : (s.fallThrough).gpr = s.gpr := rfl
@[simp] theorem State.fallThrough_hi (s : State) : (s.fallThrough).hi = s.hi := rfl
@[simp] theorem State.fallThrough_lo (s : State) : (s.fallThrough).lo = s.lo := rfl
@[simp] theorem State.fallThrough_pc (s : State) : (s.fallThrough).pc = s.npc := rfl
@[simp] theorem State.fallThrough_npc (s : State) : (s.fallThrough).npc = s.npc + 4 := rfl
@[simp] theorem State.fallThrough_ds (s : State) : (s.fallThrough).ds = true := rfl
@[simp] theorem State.fallThrough_cp0 (s : State) : (s.fallThrough).cp0 = s.cp0 := rfl
@[simp] theorem State.fallThrough_tlb (s : State) : (s.fallThrough).tlb = s.tlb := rfl
@[simp] theorem State.fallThrough_wb (s : State) : (s.fallThrough).wb = s.wb := rfl
@[simp] theorem State.fallThrough_recent (s : State) : (s.fallThrough).recent = (.untaken :: s.recent.map Trace.settle).take s.traceLength := rfl
@[simp] theorem State.fallThrough_icache (s : State) : (s.fallThrough).icache = s.icache := rfl
@[simp] theorem State.fallThrough_dcache (s : State) : (s.fallThrough).dcache = s.dcache := rfl
@[simp] theorem State.fallThrough_pending (s : State) : (s.fallThrough).pending = .none := rfl
@[simp] theorem State.fallThrough_fresh (s : State) : (s.fallThrough).fresh = false := rfl
@[simp] theorem State.fallThrough_mem (s : State) : (s.fallThrough).mem = s.mem := rfl
@[simp] theorem State.fallThrough_dev (s : State) : (s.fallThrough).dev = s.dev := rfl
@[simp] theorem State.fallThrough_board (s : State) : (s.fallThrough).board = s.board := rfl
@[simp] theorem State.fallThrough_agenda (s : State) : (s.fallThrough).agenda = s.agenda := rfl
@[simp] theorem State.fallThrough_draws (s : State) : (s.fallThrough).draws = s.draws + 1 := rfl

/-! ## `State.nullify` -/

@[simp] theorem State.nullify_gpr (s : State) : (s.nullify).gpr = s.gpr := rfl
@[simp] theorem State.nullify_hi (s : State) : (s.nullify).hi = s.hi := rfl
@[simp] theorem State.nullify_lo (s : State) : (s.nullify).lo = s.lo := rfl
@[simp] theorem State.nullify_pc (s : State) : (s.nullify).pc = s.npc + 4 := rfl
@[simp] theorem State.nullify_npc (s : State) : (s.nullify).npc = s.npc + 8 := rfl
@[simp] theorem State.nullify_ds (s : State) : (s.nullify).ds = false := rfl
@[simp] theorem State.nullify_cp0 (s : State) : (s.nullify).cp0 = s.cp0 := rfl
@[simp] theorem State.nullify_tlb (s : State) : (s.nullify).tlb = s.tlb := rfl
@[simp] theorem State.nullify_wb (s : State) : (s.nullify).wb = s.wb := rfl
@[simp] theorem State.nullify_recent (s : State) : (s.nullify).recent = (.plain :: s.recent.map Trace.settle).take s.traceLength := rfl
@[simp] theorem State.nullify_icache (s : State) : (s.nullify).icache = s.icache := rfl
@[simp] theorem State.nullify_dcache (s : State) : (s.nullify).dcache = s.dcache := rfl
@[simp] theorem State.nullify_pending (s : State) : (s.nullify).pending = .none := rfl
@[simp] theorem State.nullify_fresh (s : State) : (s.nullify).fresh = false := rfl
@[simp] theorem State.nullify_mem (s : State) : (s.nullify).mem = s.mem := rfl
@[simp] theorem State.nullify_dev (s : State) : (s.nullify).dev = s.dev := rfl
@[simp] theorem State.nullify_board (s : State) : (s.nullify).board = s.board := rfl
@[simp] theorem State.nullify_agenda (s : State) : (s.nullify).agenda = s.agenda := rfl
@[simp] theorem State.nullify_draws (s : State) : (s.nullify).draws = s.draws + 1 := rfl

/-! ## `State.returnMode` -/

@[simp] theorem State.returnMode_gpr (s : State) : (s.returnMode).gpr = s.gpr := rfl
@[simp] theorem State.returnMode_hi (s : State) : (s.returnMode).hi = s.hi := rfl
@[simp] theorem State.returnMode_lo (s : State) : (s.returnMode).lo = s.lo := rfl
@[simp] theorem State.returnMode_pc (s : State) : (s.returnMode).pc = s.pc := rfl
@[simp] theorem State.returnMode_npc (s : State) : (s.returnMode).npc = s.npc := rfl
@[simp] theorem State.returnMode_ds (s : State) : (s.returnMode).ds = s.ds := rfl
@[simp] theorem State.returnMode_cp0 (s : State) : (s.returnMode).cp0 = { s.cp0 with status := popStatus s.cp0.status } := rfl
@[simp] theorem State.returnMode_tlb (s : State) : (s.returnMode).tlb = s.tlb := rfl
@[simp] theorem State.returnMode_wb (s : State) : (s.returnMode).wb = s.wb := rfl
@[simp] theorem State.returnMode_recent (s : State) : (s.returnMode).recent = s.recent.map (Trace.mapCp0 popStatus id) := rfl
@[simp] theorem State.returnMode_icache (s : State) : (s.returnMode).icache = s.icache := rfl
@[simp] theorem State.returnMode_dcache (s : State) : (s.returnMode).dcache = s.dcache := rfl
@[simp] theorem State.returnMode_pending (s : State) : (s.returnMode).pending = s.pending := rfl
@[simp] theorem State.returnMode_fresh (s : State) : (s.returnMode).fresh = s.fresh := rfl
@[simp] theorem State.returnMode_mem (s : State) : (s.returnMode).mem = s.mem := rfl
@[simp] theorem State.returnMode_dev (s : State) : (s.returnMode).dev = s.dev := rfl
@[simp] theorem State.returnMode_board (s : State) : (s.returnMode).board = s.board := rfl
@[simp] theorem State.returnMode_agenda (s : State) : (s.returnMode).agenda = s.agenda := rfl
@[simp] theorem State.returnMode_draws (s : State) : (s.returnMode).draws = s.draws := rfl

/-! ## `State.raise` -/

@[simp] theorem State.raise_gpr (s : State) (e : Exc) : (s.raise e).gpr = s.gpr := rfl
@[simp] theorem State.raise_hi (s : State) (e : Exc) : (s.raise e).hi = s.hi := rfl
@[simp] theorem State.raise_lo (s : State) (e : Exc) : (s.raise e).lo = s.lo := rfl
@[simp] theorem State.raise_pc (s : State) (e : Exc) : (s.raise e).pc = vectorOf (bitOf (s.seenStatus tagVector 0x00400000) 22) e.utlbMiss := rfl
@[simp] theorem State.raise_npc (s : State) (e : Exc) : (s.raise e).npc = vectorOf (bitOf (s.seenStatus tagVector 0x00400000) 22) e.utlbMiss + 4 := rfl
@[simp] theorem State.raise_ds (s : State) (e : Exc) : (s.raise e).ds = false := rfl
@[simp] theorem State.raise_cp0 (s : State) (e : Exc) : (s.raise e).cp0 = s.cp0.raise e s.pc s.ds ((s.free tagCauseCe).extractLsb' 0 2) := rfl
@[simp] theorem State.raise_tlb (s : State) (e : Exc) : (s.raise e).tlb = s.tlb := rfl
@[simp] theorem State.raise_wb (s : State) (e : Exc) : (s.raise e).wb = s.wb := rfl
@[simp] theorem State.raise_recent (s : State) (e : Exc) : (s.raise e).recent = s.recent.map fun t => (t.mapCp0 pushStatus e.entryHi).interrupt := rfl
@[simp] theorem State.raise_icache (s : State) (e : Exc) : (s.raise e).icache = s.icache := rfl
@[simp] theorem State.raise_dcache (s : State) (e : Exc) : (s.raise e).dcache = s.dcache := rfl
@[simp] theorem State.raise_pending (s : State) (e : Exc) : (s.raise e).pending = .none := rfl
@[simp] theorem State.raise_fresh (s : State) (e : Exc) : (s.raise e).fresh = false := rfl
@[simp] theorem State.raise_mem (s : State) (e : Exc) : (s.raise e).mem = s.mem := rfl
@[simp] theorem State.raise_dev (s : State) (e : Exc) : (s.raise e).dev = s.dev := rfl
@[simp] theorem State.raise_board (s : State) (e : Exc) : (s.raise e).board = s.board := rfl
@[simp] theorem State.raise_agenda (s : State) (e : Exc) : (s.raise e).agenda = s.agenda := rfl
@[simp] theorem State.raise_draws (s : State) (e : Exc) : (s.raise e).draws = s.draws + 1 := rfl

/-! ## `State.noteUse` -/

@[simp] theorem State.noteUse_gpr (s : State) (i : Instr) : (s.noteUse i).gpr = s.gpr := rfl
@[simp] theorem State.noteUse_hi (s : State) (i : Instr) : (s.noteUse i).hi = s.hi := rfl
@[simp] theorem State.noteUse_lo (s : State) (i : Instr) : (s.noteUse i).lo = s.lo := rfl
@[simp] theorem State.noteUse_pc (s : State) (i : Instr) : (s.noteUse i).pc = s.pc := rfl
@[simp] theorem State.noteUse_npc (s : State) (i : Instr) : (s.noteUse i).npc = s.npc := rfl
@[simp] theorem State.noteUse_ds (s : State) (i : Instr) : (s.noteUse i).ds = s.ds := rfl
@[simp] theorem State.noteUse_cp0 (s : State) (i : Instr) : (s.noteUse i).cp0 = s.cp0 := rfl
@[simp] theorem State.noteUse_tlb (s : State) (i : Instr) : (s.noteUse i).tlb = s.tlb := rfl
@[simp] theorem State.noteUse_wb (s : State) (i : Instr) : (s.noteUse i).wb = s.wb := rfl
@[simp] theorem State.noteUse_recent (s : State) (i : Instr) : (s.noteUse i).recent = s.recent.map (Trace.note (sourcesOf i) (destOf i) (loadsRegister i)) := rfl
@[simp] theorem State.noteUse_icache (s : State) (i : Instr) : (s.noteUse i).icache = s.icache := rfl
@[simp] theorem State.noteUse_dcache (s : State) (i : Instr) : (s.noteUse i).dcache = s.dcache := rfl
@[simp] theorem State.noteUse_pending (s : State) (i : Instr) : (s.noteUse i).pending = s.pending := rfl
@[simp] theorem State.noteUse_fresh (s : State) (i : Instr) : (s.noteUse i).fresh = s.fresh := rfl
@[simp] theorem State.noteUse_mem (s : State) (i : Instr) : (s.noteUse i).mem = s.mem := rfl
@[simp] theorem State.noteUse_dev (s : State) (i : Instr) : (s.noteUse i).dev = s.dev := rfl
@[simp] theorem State.noteUse_board (s : State) (i : Instr) : (s.noteUse i).board = s.board := rfl
@[simp] theorem State.noteUse_agenda (s : State) (i : Instr) : (s.noteUse i).agenda = s.agenda := rfl
@[simp] theorem State.noteUse_draws (s : State) (i : Instr) : (s.noteUse i).draws = s.draws := rfl

/-! ## `State.startBus` -/

@[simp] theorem State.startBus_gpr (s : State) (u : BusUser) (t : Target) (be : BitVec 4) (write : Bool) : (s.startBus u t be write).gpr = s.gpr := rfl
@[simp] theorem State.startBus_hi (s : State) (u : BusUser) (t : Target) (be : BitVec 4) (write : Bool) : (s.startBus u t be write).hi = s.hi := rfl
@[simp] theorem State.startBus_lo (s : State) (u : BusUser) (t : Target) (be : BitVec 4) (write : Bool) : (s.startBus u t be write).lo = s.lo := rfl
@[simp] theorem State.startBus_pc (s : State) (u : BusUser) (t : Target) (be : BitVec 4) (write : Bool) : (s.startBus u t be write).pc = s.pc := rfl
@[simp] theorem State.startBus_npc (s : State) (u : BusUser) (t : Target) (be : BitVec 4) (write : Bool) : (s.startBus u t be write).npc = s.npc := rfl
@[simp] theorem State.startBus_ds (s : State) (u : BusUser) (t : Target) (be : BitVec 4) (write : Bool) : (s.startBus u t be write).ds = s.ds := rfl
@[simp] theorem State.startBus_cp0 (s : State) (u : BusUser) (t : Target) (be : BitVec 4) (write : Bool) : (s.startBus u t be write).cp0 = s.cp0 := rfl
@[simp] theorem State.startBus_tlb (s : State) (u : BusUser) (t : Target) (be : BitVec 4) (write : Bool) : (s.startBus u t be write).tlb = s.tlb := rfl
@[simp] theorem State.startBus_wb (s : State) (u : BusUser) (t : Target) (be : BitVec 4) (write : Bool) : (s.startBus u t be write).wb = s.wb := rfl
@[simp] theorem State.startBus_recent (s : State) (u : BusUser) (t : Target) (be : BitVec 4) (write : Bool) : (s.startBus u t be write).recent = s.recent := rfl
@[simp] theorem State.startBus_icache (s : State) (u : BusUser) (t : Target) (be : BitVec 4) (write : Bool) : (s.startBus u t be write).icache = s.icache := rfl
@[simp] theorem State.startBus_dcache (s : State) (u : BusUser) (t : Target) (be : BitVec 4) (write : Bool) : (s.startBus u t be write).dcache = s.dcache := rfl
@[simp] theorem State.startBus_pending (s : State) (u : BusUser) (t : Target) (be : BitVec 4) (write : Bool) : (s.startBus u t be write).pending = s.pending := rfl
@[simp] theorem State.startBus_fresh (s : State) (u : BusUser) (t : Target) (be : BitVec 4) (write : Bool) : (s.startBus u t be write).fresh = s.fresh := rfl
@[simp] theorem State.startBus_mem (s : State) (u : BusUser) (t : Target) (be : BitVec 4) (write : Bool) : (s.startBus u t be write).mem = s.mem := rfl
@[simp] theorem State.startBus_board (s : State) (u : BusUser) (t : Target) (be : BitVec 4) (write : Bool) : (s.startBus u t be write).board = s.board := rfl
@[simp] theorem State.startBus_agenda (s : State) (u : BusUser) (t : Target) (be : BitVec 4) (write : Bool) : (s.startBus u t be write).agenda = s.agenda := rfl
@[simp] theorem State.startBus_draws (s : State) (u : BusUser) (t : Target) (be : BitVec 4) (write : Bool) : (s.startBus u t be write).draws = s.draws := rfl

/-! ## `State.endBus` -/

@[simp] theorem State.endBus_gpr (s : State) : (s.endBus).gpr = s.gpr := rfl
@[simp] theorem State.endBus_hi (s : State) : (s.endBus).hi = s.hi := rfl
@[simp] theorem State.endBus_lo (s : State) : (s.endBus).lo = s.lo := rfl
@[simp] theorem State.endBus_pc (s : State) : (s.endBus).pc = s.pc := rfl
@[simp] theorem State.endBus_npc (s : State) : (s.endBus).npc = s.npc := rfl
@[simp] theorem State.endBus_ds (s : State) : (s.endBus).ds = s.ds := rfl
@[simp] theorem State.endBus_cp0 (s : State) : (s.endBus).cp0 = s.cp0 := rfl
@[simp] theorem State.endBus_tlb (s : State) : (s.endBus).tlb = s.tlb := rfl
@[simp] theorem State.endBus_wb (s : State) : (s.endBus).wb = s.wb := rfl
@[simp] theorem State.endBus_recent (s : State) : (s.endBus).recent = s.recent := rfl
@[simp] theorem State.endBus_icache (s : State) : (s.endBus).icache = s.icache := rfl
@[simp] theorem State.endBus_dcache (s : State) : (s.endBus).dcache = s.dcache := rfl
@[simp] theorem State.endBus_pending (s : State) : (s.endBus).pending = s.pending := rfl
@[simp] theorem State.endBus_fresh (s : State) : (s.endBus).fresh = s.fresh := rfl
@[simp] theorem State.endBus_mem (s : State) : (s.endBus).mem = s.mem := rfl
@[simp] theorem State.endBus_board (s : State) : (s.endBus).board = s.board := rfl
@[simp] theorem State.endBus_agenda (s : State) : (s.endBus).agenda = s.agenda := rfl
@[simp] theorem State.endBus_draws (s : State) : (s.endBus).draws = s.draws := rfl

/-! ## `State.storeCells` -/

@[simp] theorem State.storeCells_gpr (s : State) (key : Nat) (data : Word) (be : BitVec 4) : (s.storeCells key data be).gpr = s.gpr := rfl
@[simp] theorem State.storeCells_hi (s : State) (key : Nat) (data : Word) (be : BitVec 4) : (s.storeCells key data be).hi = s.hi := rfl
@[simp] theorem State.storeCells_lo (s : State) (key : Nat) (data : Word) (be : BitVec 4) : (s.storeCells key data be).lo = s.lo := rfl
@[simp] theorem State.storeCells_pc (s : State) (key : Nat) (data : Word) (be : BitVec 4) : (s.storeCells key data be).pc = s.pc := rfl
@[simp] theorem State.storeCells_npc (s : State) (key : Nat) (data : Word) (be : BitVec 4) : (s.storeCells key data be).npc = s.npc := rfl
@[simp] theorem State.storeCells_ds (s : State) (key : Nat) (data : Word) (be : BitVec 4) : (s.storeCells key data be).ds = s.ds := rfl
@[simp] theorem State.storeCells_cp0 (s : State) (key : Nat) (data : Word) (be : BitVec 4) : (s.storeCells key data be).cp0 = s.cp0 := rfl
@[simp] theorem State.storeCells_tlb (s : State) (key : Nat) (data : Word) (be : BitVec 4) : (s.storeCells key data be).tlb = s.tlb := rfl
@[simp] theorem State.storeCells_wb (s : State) (key : Nat) (data : Word) (be : BitVec 4) : (s.storeCells key data be).wb = s.wb := rfl
@[simp] theorem State.storeCells_recent (s : State) (key : Nat) (data : Word) (be : BitVec 4) : (s.storeCells key data be).recent = s.recent := rfl
@[simp] theorem State.storeCells_icache (s : State) (key : Nat) (data : Word) (be : BitVec 4) : (s.storeCells key data be).icache = s.icache := rfl
@[simp] theorem State.storeCells_dcache (s : State) (key : Nat) (data : Word) (be : BitVec 4) : (s.storeCells key data be).dcache = s.dcache := rfl
@[simp] theorem State.storeCells_pending (s : State) (key : Nat) (data : Word) (be : BitVec 4) : (s.storeCells key data be).pending = s.pending := rfl
@[simp] theorem State.storeCells_fresh (s : State) (key : Nat) (data : Word) (be : BitVec 4) : (s.storeCells key data be).fresh = s.fresh := rfl
@[simp] theorem State.storeCells_mem (s : State) (key : Nat) (data : Word) (be : BitVec 4) : (s.storeCells key data be).mem = s.mem.writeLanes s.board.bigEndian key data be := rfl
@[simp] theorem State.storeCells_dev (s : State) (key : Nat) (data : Word) (be : BitVec 4) : (s.storeCells key data be).dev = s.dev := rfl
@[simp] theorem State.storeCells_board (s : State) (key : Nat) (data : Word) (be : BitVec 4) : (s.storeCells key data be).board = s.board := rfl
@[simp] theorem State.storeCells_agenda (s : State) (key : Nat) (data : Word) (be : BitVec 4) : (s.storeCells key data be).agenda = s.agenda := rfl
@[simp] theorem State.storeCells_draws (s : State) (key : Nat) (data : Word) (be : BitVec 4) : (s.storeCells key data be).draws = s.draws := rfl

/-! ## `State.cacheStore` -/

/-- A store changes the data cache alone before it enters the write buffer. -/
theorem State.cacheStore_eq (s : State) (pa data : Word) (be : BitVec 4) (cached : Bool) :
    s.cacheStore pa data be cached = { s with dcache := (s.cacheStore pa data be cached).dcache } := by
  unfold State.cacheStore
  split
  · rfl
  · split
    · rfl
    · dsimp only
      split <;> rfl

@[simp] theorem State.cacheStore_gpr (s : State) (pa data : Word) (be : BitVec 4) (cached : Bool) : (s.cacheStore pa data be cached).gpr = s.gpr := by rw [State.cacheStore_eq]
@[simp] theorem State.cacheStore_hi (s : State) (pa data : Word) (be : BitVec 4) (cached : Bool) : (s.cacheStore pa data be cached).hi = s.hi := by rw [State.cacheStore_eq]
@[simp] theorem State.cacheStore_lo (s : State) (pa data : Word) (be : BitVec 4) (cached : Bool) : (s.cacheStore pa data be cached).lo = s.lo := by rw [State.cacheStore_eq]
@[simp] theorem State.cacheStore_pc (s : State) (pa data : Word) (be : BitVec 4) (cached : Bool) : (s.cacheStore pa data be cached).pc = s.pc := by rw [State.cacheStore_eq]
@[simp] theorem State.cacheStore_npc (s : State) (pa data : Word) (be : BitVec 4) (cached : Bool) : (s.cacheStore pa data be cached).npc = s.npc := by rw [State.cacheStore_eq]
@[simp] theorem State.cacheStore_ds (s : State) (pa data : Word) (be : BitVec 4) (cached : Bool) : (s.cacheStore pa data be cached).ds = s.ds := by rw [State.cacheStore_eq]
@[simp] theorem State.cacheStore_cp0 (s : State) (pa data : Word) (be : BitVec 4) (cached : Bool) : (s.cacheStore pa data be cached).cp0 = s.cp0 := by rw [State.cacheStore_eq]
@[simp] theorem State.cacheStore_tlb (s : State) (pa data : Word) (be : BitVec 4) (cached : Bool) : (s.cacheStore pa data be cached).tlb = s.tlb := by rw [State.cacheStore_eq]
@[simp] theorem State.cacheStore_wb (s : State) (pa data : Word) (be : BitVec 4) (cached : Bool) : (s.cacheStore pa data be cached).wb = s.wb := by rw [State.cacheStore_eq]
@[simp] theorem State.cacheStore_recent (s : State) (pa data : Word) (be : BitVec 4) (cached : Bool) : (s.cacheStore pa data be cached).recent = s.recent := by rw [State.cacheStore_eq]
@[simp] theorem State.cacheStore_icache (s : State) (pa data : Word) (be : BitVec 4) (cached : Bool) : (s.cacheStore pa data be cached).icache = s.icache := by rw [State.cacheStore_eq]
@[simp] theorem State.cacheStore_pending (s : State) (pa data : Word) (be : BitVec 4) (cached : Bool) : (s.cacheStore pa data be cached).pending = s.pending := by rw [State.cacheStore_eq]
@[simp] theorem State.cacheStore_fresh (s : State) (pa data : Word) (be : BitVec 4) (cached : Bool) : (s.cacheStore pa data be cached).fresh = s.fresh := by rw [State.cacheStore_eq]
@[simp] theorem State.cacheStore_mem (s : State) (pa data : Word) (be : BitVec 4) (cached : Bool) : (s.cacheStore pa data be cached).mem = s.mem := by rw [State.cacheStore_eq]
@[simp] theorem State.cacheStore_dev (s : State) (pa data : Word) (be : BitVec 4) (cached : Bool) : (s.cacheStore pa data be cached).dev = s.dev := by rw [State.cacheStore_eq]
@[simp] theorem State.cacheStore_board (s : State) (pa data : Word) (be : BitVec 4) (cached : Bool) : (s.cacheStore pa data be cached).board = s.board := by rw [State.cacheStore_eq]
@[simp] theorem State.cacheStore_agenda (s : State) (pa data : Word) (be : BitVec 4) (cached : Bool) : (s.cacheStore pa data be cached).agenda = s.agenda := by rw [State.cacheStore_eq]
@[simp] theorem State.cacheStore_draws (s : State) (pa data : Word) (be : BitVec 4) (cached : Bool) : (s.cacheStore pa data be cached).draws = s.draws := by rw [State.cacheStore_eq]

/-! ## `State.append` -/

@[simp] theorem State.append_gpr (s : State) (e : WbEntry) : (s.append e).gpr = s.gpr := rfl
@[simp] theorem State.append_hi (s : State) (e : WbEntry) : (s.append e).hi = s.hi := rfl
@[simp] theorem State.append_lo (s : State) (e : WbEntry) : (s.append e).lo = s.lo := rfl
@[simp] theorem State.append_pc (s : State) (e : WbEntry) : (s.append e).pc = s.pc := rfl
@[simp] theorem State.append_npc (s : State) (e : WbEntry) : (s.append e).npc = s.npc := rfl
@[simp] theorem State.append_ds (s : State) (e : WbEntry) : (s.append e).ds = s.ds := rfl
@[simp] theorem State.append_cp0 (s : State) (e : WbEntry) : (s.append e).cp0 = s.cp0 := rfl
@[simp] theorem State.append_tlb (s : State) (e : WbEntry) : (s.append e).tlb = s.tlb := rfl
@[simp] theorem State.append_wb (s : State) (e : WbEntry) : (s.append e).wb = s.wb ++ [e] := rfl
@[simp] theorem State.append_recent (s : State) (e : WbEntry) : (s.append e).recent = s.recent := rfl
@[simp] theorem State.append_icache (s : State) (e : WbEntry) : (s.append e).icache = s.icache := rfl
@[simp] theorem State.append_dcache (s : State) (e : WbEntry) : (s.append e).dcache = s.dcache := rfl
@[simp] theorem State.append_pending (s : State) (e : WbEntry) : (s.append e).pending = s.pending := rfl
@[simp] theorem State.append_fresh (s : State) (e : WbEntry) : (s.append e).fresh = s.fresh := rfl
@[simp] theorem State.append_mem (s : State) (e : WbEntry) : (s.append e).mem = s.mem := rfl
@[simp] theorem State.append_dev (s : State) (e : WbEntry) : (s.append e).dev = s.dev := rfl
@[simp] theorem State.append_board (s : State) (e : WbEntry) : (s.append e).board = s.board := rfl
@[simp] theorem State.append_agenda (s : State) (e : WbEntry) : (s.append e).agenda = s.agenda := rfl
@[simp] theorem State.append_draws (s : State) (e : WbEntry) : (s.append e).draws = s.draws := rfl

/-! ## `State.dropPlace` -/

@[simp] theorem State.dropPlace_gpr (s : State) (a : Word) : (s.dropPlace a).gpr = s.gpr := rfl
@[simp] theorem State.dropPlace_hi (s : State) (a : Word) : (s.dropPlace a).hi = s.hi := rfl
@[simp] theorem State.dropPlace_lo (s : State) (a : Word) : (s.dropPlace a).lo = s.lo := rfl
@[simp] theorem State.dropPlace_pc (s : State) (a : Word) : (s.dropPlace a).pc = s.pc := rfl
@[simp] theorem State.dropPlace_npc (s : State) (a : Word) : (s.dropPlace a).npc = s.npc := rfl
@[simp] theorem State.dropPlace_ds (s : State) (a : Word) : (s.dropPlace a).ds = s.ds := rfl
@[simp] theorem State.dropPlace_cp0 (s : State) (a : Word) : (s.dropPlace a).cp0 = s.cp0 := rfl
@[simp] theorem State.dropPlace_tlb (s : State) (a : Word) : (s.dropPlace a).tlb = s.tlb := rfl
@[simp] theorem State.dropPlace_wb (s : State) (a : Word) : (s.dropPlace a).wb = s.wb := rfl
@[simp] theorem State.dropPlace_recent (s : State) (a : Word) : (s.dropPlace a).recent = s.recent := rfl
@[simp] theorem State.dropPlace_icache (s : State) (a : Word) : (s.dropPlace a).icache = s.icache := rfl
@[simp] theorem State.dropPlace_dcache (s : State) (a : Word) : (s.dropPlace a).dcache = dDrop s.board.dKbyte s.dcache a := rfl
@[simp] theorem State.dropPlace_pending (s : State) (a : Word) : (s.dropPlace a).pending = s.pending := rfl
@[simp] theorem State.dropPlace_fresh (s : State) (a : Word) : (s.dropPlace a).fresh = s.fresh := rfl
@[simp] theorem State.dropPlace_mem (s : State) (a : Word) : (s.dropPlace a).mem = s.mem := rfl
@[simp] theorem State.dropPlace_dev (s : State) (a : Word) : (s.dropPlace a).dev = s.dev := rfl
@[simp] theorem State.dropPlace_board (s : State) (a : Word) : (s.dropPlace a).board = s.board := rfl
@[simp] theorem State.dropPlace_agenda (s : State) (a : Word) : (s.dropPlace a).agenda = s.agenda := rfl
@[simp] theorem State.dropPlace_draws (s : State) (a : Word) : (s.dropPlace a).draws = s.draws := rfl

/-! ## `State.snoop` -/

@[simp] theorem State.snoop_gpr (s : State) (pa : Word) (disabled : Bool) : (s.snoop pa disabled).gpr = s.gpr := by unfold State.snoop; split <;> rfl
@[simp] theorem State.snoop_hi (s : State) (pa : Word) (disabled : Bool) : (s.snoop pa disabled).hi = s.hi := by unfold State.snoop; split <;> rfl
@[simp] theorem State.snoop_lo (s : State) (pa : Word) (disabled : Bool) : (s.snoop pa disabled).lo = s.lo := by unfold State.snoop; split <;> rfl
@[simp] theorem State.snoop_pc (s : State) (pa : Word) (disabled : Bool) : (s.snoop pa disabled).pc = s.pc := by unfold State.snoop; split <;> rfl
@[simp] theorem State.snoop_npc (s : State) (pa : Word) (disabled : Bool) : (s.snoop pa disabled).npc = s.npc := by unfold State.snoop; split <;> rfl
@[simp] theorem State.snoop_ds (s : State) (pa : Word) (disabled : Bool) : (s.snoop pa disabled).ds = s.ds := by unfold State.snoop; split <;> rfl
@[simp] theorem State.snoop_cp0 (s : State) (pa : Word) (disabled : Bool) : (s.snoop pa disabled).cp0 = s.cp0 := by unfold State.snoop; split <;> rfl
@[simp] theorem State.snoop_tlb (s : State) (pa : Word) (disabled : Bool) : (s.snoop pa disabled).tlb = s.tlb := by unfold State.snoop; split <;> rfl
@[simp] theorem State.snoop_wb (s : State) (pa : Word) (disabled : Bool) : (s.snoop pa disabled).wb = s.wb := by unfold State.snoop; split <;> rfl
@[simp] theorem State.snoop_recent (s : State) (pa : Word) (disabled : Bool) : (s.snoop pa disabled).recent = s.recent := by unfold State.snoop; split <;> rfl
@[simp] theorem State.snoop_pending (s : State) (pa : Word) (disabled : Bool) : (s.snoop pa disabled).pending = s.pending := by unfold State.snoop; split <;> rfl
@[simp] theorem State.snoop_fresh (s : State) (pa : Word) (disabled : Bool) : (s.snoop pa disabled).fresh = s.fresh := by unfold State.snoop; split <;> rfl
@[simp] theorem State.snoop_mem (s : State) (pa : Word) (disabled : Bool) : (s.snoop pa disabled).mem = s.mem := by unfold State.snoop; split <;> rfl
@[simp] theorem State.snoop_dev (s : State) (pa : Word) (disabled : Bool) : (s.snoop pa disabled).dev = s.dev := by unfold State.snoop; split <;> rfl
@[simp] theorem State.snoop_board (s : State) (pa : Word) (disabled : Bool) : (s.snoop pa disabled).board = s.board := by unfold State.snoop; split <;> rfl
@[simp] theorem State.snoop_agenda (s : State) (pa : Word) (disabled : Bool) : (s.snoop pa disabled).agenda = s.agenda := by unfold State.snoop; split <;> rfl
@[simp] theorem State.snoop_draws (s : State) (pa : Word) (disabled : Bool) : (s.snoop pa disabled).draws = s.draws := by unfold State.snoop; split <;> rfl

/-! ## `State.mapDev` -/

@[simp] theorem State.mapDev_gpr (s : State) (f : Dev → Dev) : (s.mapDev f).gpr = s.gpr := by rfl
@[simp] theorem State.mapDev_hi (s : State) (f : Dev → Dev) : (s.mapDev f).hi = s.hi := by rfl
@[simp] theorem State.mapDev_lo (s : State) (f : Dev → Dev) : (s.mapDev f).lo = s.lo := by rfl
@[simp] theorem State.mapDev_pc (s : State) (f : Dev → Dev) : (s.mapDev f).pc = s.pc := by rfl
@[simp] theorem State.mapDev_npc (s : State) (f : Dev → Dev) : (s.mapDev f).npc = s.npc := by rfl
@[simp] theorem State.mapDev_ds (s : State) (f : Dev → Dev) : (s.mapDev f).ds = s.ds := by rfl
@[simp] theorem State.mapDev_cp0 (s : State) (f : Dev → Dev) : (s.mapDev f).cp0 = s.cp0 := by rfl
@[simp] theorem State.mapDev_tlb (s : State) (f : Dev → Dev) : (s.mapDev f).tlb = s.tlb := by rfl
@[simp] theorem State.mapDev_wb (s : State) (f : Dev → Dev) : (s.mapDev f).wb = s.wb := by rfl
@[simp] theorem State.mapDev_recent (s : State) (f : Dev → Dev) : (s.mapDev f).recent = s.recent := by rfl
@[simp] theorem State.mapDev_icache (s : State) (f : Dev → Dev) : (s.mapDev f).icache = s.icache := by rfl
@[simp] theorem State.mapDev_dcache (s : State) (f : Dev → Dev) : (s.mapDev f).dcache = s.dcache := by rfl
@[simp] theorem State.mapDev_pending (s : State) (f : Dev → Dev) : (s.mapDev f).pending = s.pending := by rfl
@[simp] theorem State.mapDev_fresh (s : State) (f : Dev → Dev) : (s.mapDev f).fresh = s.fresh := by rfl
@[simp] theorem State.mapDev_mem (s : State) (f : Dev → Dev) : (s.mapDev f).mem = s.mem := by rfl
@[simp] theorem State.mapDev_dev (s : State) (f : Dev → Dev) : (s.mapDev f).dev = (f s.dev).settle (s.free tagChi) := by rfl
@[simp] theorem State.mapDev_board (s : State) (f : Dev → Dev) : (s.mapDev f).board = s.board := by rfl
@[simp] theorem State.mapDev_agenda (s : State) (f : Dev → Dev) : (s.mapDev f).agenda = s.agenda := by rfl
@[simp] theorem State.mapDev_draws (s : State) (f : Dev → Dev) : (s.mapDev f).draws = s.draws := by rfl

/-! ## `State.link` -/

@[simp] theorem State.link_hi (s : State) : (s.link).hi = s.hi := rfl
@[simp] theorem State.link_lo (s : State) : (s.link).lo = s.lo := rfl
@[simp] theorem State.link_pc (s : State) : (s.link).pc = s.pc := rfl
@[simp] theorem State.link_npc (s : State) : (s.link).npc = s.npc := rfl
@[simp] theorem State.link_ds (s : State) : (s.link).ds = s.ds := rfl
@[simp] theorem State.link_cp0 (s : State) : (s.link).cp0 = s.cp0 := rfl
@[simp] theorem State.link_tlb (s : State) : (s.link).tlb = s.tlb := rfl
@[simp] theorem State.link_wb (s : State) : (s.link).wb = s.wb := rfl
@[simp] theorem State.link_recent (s : State) : (s.link).recent = s.recent := rfl
@[simp] theorem State.link_icache (s : State) : (s.link).icache = s.icache := rfl
@[simp] theorem State.link_dcache (s : State) : (s.link).dcache = s.dcache := rfl
@[simp] theorem State.link_pending (s : State) : (s.link).pending = s.pending := rfl
@[simp] theorem State.link_fresh (s : State) : (s.link).fresh = s.fresh := rfl
@[simp] theorem State.link_mem (s : State) : (s.link).mem = s.mem := rfl
@[simp] theorem State.link_dev (s : State) : (s.link).dev = s.dev := rfl
@[simp] theorem State.link_board (s : State) : (s.link).board = s.board := rfl
@[simp] theorem State.link_agenda (s : State) : (s.link).agenda = s.agenda := rfl
@[simp] theorem State.link_draws (s : State) : (s.link).draws = s.draws := rfl

/-! ## `State.takeNmi` -/

@[simp] theorem State.takeNmi_gpr (s : State) : (s.takeNmi).gpr = s.gpr := rfl
@[simp] theorem State.takeNmi_hi (s : State) : (s.takeNmi).hi = s.hi := rfl
@[simp] theorem State.takeNmi_lo (s : State) : (s.takeNmi).lo = s.lo := rfl
@[simp] theorem State.takeNmi_pc (s : State) : (s.takeNmi).pc = 0xBFC00000 := rfl
@[simp] theorem State.takeNmi_npc (s : State) : (s.takeNmi).npc = 0xBFC00004 := rfl
@[simp] theorem State.takeNmi_ds (s : State) : (s.takeNmi).ds = false := rfl
@[simp] theorem State.takeNmi_tlb (s : State) : (s.takeNmi).tlb = s.tlb := rfl
@[simp] theorem State.takeNmi_wb (s : State) : (s.takeNmi).wb = s.wb := rfl
@[simp] theorem State.takeNmi_recent (s : State) : (s.takeNmi).recent = s.recent.map fun t => (t.mapCp0 (nmiStatus (s.free tagNmiStatus)) id).interrupt := rfl
@[simp] theorem State.takeNmi_icache (s : State) : (s.takeNmi).icache = s.icache := rfl
@[simp] theorem State.takeNmi_dcache (s : State) : (s.takeNmi).dcache = s.dcache := rfl
@[simp] theorem State.takeNmi_pending (s : State) : (s.takeNmi).pending = .none := rfl
@[simp] theorem State.takeNmi_fresh (s : State) : (s.takeNmi).fresh = false := rfl
@[simp] theorem State.takeNmi_mem (s : State) : (s.takeNmi).mem = s.mem := rfl
@[simp] theorem State.takeNmi_board (s : State) : (s.takeNmi).board = s.board := rfl
@[simp] theorem State.takeNmi_agenda (s : State) : (s.takeNmi).agenda = s.agenda := rfl
@[simp] theorem State.takeNmi_draws (s : State) : (s.takeNmi).draws = s.draws + 1 := rfl

/-! ## `State.withTurn` -/

@[simp] theorem State.withTurn_gpr (s : State) (t : BusTurn) : (s.withTurn t).gpr = s.gpr := rfl
@[simp] theorem State.withTurn_hi (s : State) (t : BusTurn) : (s.withTurn t).hi = s.hi := rfl
@[simp] theorem State.withTurn_lo (s : State) (t : BusTurn) : (s.withTurn t).lo = s.lo := rfl
@[simp] theorem State.withTurn_pc (s : State) (t : BusTurn) : (s.withTurn t).pc = s.pc := rfl
@[simp] theorem State.withTurn_npc (s : State) (t : BusTurn) : (s.withTurn t).npc = s.npc := rfl
@[simp] theorem State.withTurn_ds (s : State) (t : BusTurn) : (s.withTurn t).ds = s.ds := rfl
@[simp] theorem State.withTurn_cp0 (s : State) (t : BusTurn) : (s.withTurn t).cp0 = s.cp0 := rfl
@[simp] theorem State.withTurn_tlb (s : State) (t : BusTurn) : (s.withTurn t).tlb = s.tlb := rfl
@[simp] theorem State.withTurn_wb (s : State) (t : BusTurn) : (s.withTurn t).wb = s.wb := rfl
@[simp] theorem State.withTurn_recent (s : State) (t : BusTurn) : (s.withTurn t).recent = s.recent := rfl
@[simp] theorem State.withTurn_icache (s : State) (t : BusTurn) : (s.withTurn t).icache = s.icache := rfl
@[simp] theorem State.withTurn_dcache (s : State) (t : BusTurn) : (s.withTurn t).dcache = s.dcache := rfl
@[simp] theorem State.withTurn_pending (s : State) (t : BusTurn) : (s.withTurn t).pending = s.pending := rfl
@[simp] theorem State.withTurn_fresh (s : State) (t : BusTurn) : (s.withTurn t).fresh = s.fresh := rfl
@[simp] theorem State.withTurn_mem (s : State) (t : BusTurn) : (s.withTurn t).mem = s.mem := rfl
@[simp] theorem State.withTurn_dev (s : State) (t : BusTurn) : (s.withTurn t).dev = { s.dev with biu := { s.dev.biu with turn := t } } := rfl
@[simp] theorem State.withTurn_board (s : State) (t : BusTurn) : (s.withTurn t).board = s.board := rfl
@[simp] theorem State.withTurn_agenda (s : State) (t : BusTurn) : (s.withTurn t).agenda = s.agenda := rfl
@[simp] theorem State.withTurn_draws (s : State) (t : BusTurn) : (s.withTurn t).draws = s.draws := rfl

/-! ## General registers -/

/-- Register 0 reads 0 (R31). -/
@[simp] theorem State.reg_zero (s : State) : s.reg 0 = 0 := by simp [State.reg]

/-- A read depends on the register file alone. -/
theorem State.reg_congr {s t : State} (h : s.gpr = t.gpr) (r : Reg) : s.reg r = t.reg r := by simp [State.reg, h]

/-- What every register reads after a write: the write of register 0 is discarded. -/
theorem State.setReg_reg (s : State) (r q : Reg) (v : Word) :
    (s.setReg r v).reg q = if q = r ∧ r ≠ 0 then v else s.reg q := by
  unfold State.setReg State.reg
  by_cases hr : r = 0
  · simp [hr]
  · by_cases hqr : q = r
    · subst hqr; simp only [hr, if_false, Vector.getElem_set_self, true_and, ne_eq, not_false_eq_true, if_true]
    · have h : r.toNat ≠ q.toNat := fun h => hqr (BitVec.eq_of_toNat_eq h.symm)
      simp only [if_neg hr, hqr, false_and, if_false, Vector.getElem_set_ne _ _ h]

/-- Reads after the updates that leave the register file. -/
@[simp] theorem State.setAcc_reg (s : State) (v : BitVec 64) (q : Reg) : (s.setAcc v).reg q = s.reg q := State.reg_congr (by simp) q
@[simp] theorem State.advance_reg (s : State) (pc npc : Word) (ds : Bool) (t : Trace) (q : Reg) : (s.advance pc npc ds t).reg q = s.reg q := State.reg_congr (by simp) q
@[simp] theorem State.retire_reg (s : State) (t : Trace) (q : Reg) : (s.retire t).reg q = s.reg q := State.reg_congr (by simp) q
@[simp] theorem State.jumpTo_reg (s : State) (target : Word) (q : Reg) : (s.jumpTo target).reg q = s.reg q := State.reg_congr (by simp) q
@[simp] theorem State.fallThrough_reg (s : State) (q : Reg) : (s.fallThrough).reg q = s.reg q := State.reg_congr (by simp) q
@[simp] theorem State.nullify_reg (s : State) (q : Reg) : (s.nullify).reg q = s.reg q := State.reg_congr (by simp) q
@[simp] theorem State.returnMode_reg (s : State) (q : Reg) : (s.returnMode).reg q = s.reg q := State.reg_congr (by simp) q
@[simp] theorem State.raise_reg (s : State) (e : Exc) (q : Reg) : (s.raise e).reg q = s.reg q := State.reg_congr (by simp) q
@[simp] theorem State.noteUse_reg (s : State) (i : Instr) (q : Reg) : (s.noteUse i).reg q = s.reg q := State.reg_congr (by simp) q
@[simp] theorem State.startBus_reg (s : State) (u : BusUser) (t : Target) (be : BitVec 4) (write : Bool) (q : Reg) : (s.startBus u t be write).reg q = s.reg q := State.reg_congr (by simp) q
@[simp] theorem State.endBus_reg (s : State) (q : Reg) : (s.endBus).reg q = s.reg q := State.reg_congr (by simp) q
@[simp] theorem State.storeCells_reg (s : State) (key : Nat) (data : Word) (be : BitVec 4) (q : Reg) : (s.storeCells key data be).reg q = s.reg q := State.reg_congr (by simp) q
@[simp] theorem State.cacheStore_reg (s : State) (pa data : Word) (be : BitVec 4) (cached : Bool) (q : Reg) : (s.cacheStore pa data be cached).reg q = s.reg q := State.reg_congr (by simp) q
@[simp] theorem State.append_reg (s : State) (e : WbEntry) (q : Reg) : (s.append e).reg q = s.reg q := State.reg_congr (by simp) q
@[simp] theorem State.dropPlace_reg (s : State) (a : Word) (q : Reg) : (s.dropPlace a).reg q = s.reg q := State.reg_congr (by simp) q
@[simp] theorem State.withTurn_reg (s : State) (t : BusTurn) (q : Reg) : (s.withTurn t).reg q = s.reg q := State.reg_congr (by simp) q
@[simp] theorem State.snoop_reg (s : State) (pa : Word) (disabled : Bool) (q : Reg) : (s.snoop pa disabled).reg q = s.reg q := State.reg_congr (by simp) q
@[simp] theorem State.mapDev_reg (s : State) (f : Dev → Dev) (q : Reg) : (s.mapDev f).reg q = s.reg q := State.reg_congr (by simp) q
@[simp] theorem State.takeNmi_reg (s : State) (q : Reg) : (s.takeNmi).reg q = s.reg q := State.reg_congr (by simp) q

/-- The accumulator after it is written. -/
@[simp] theorem State.setAcc_acc (s : State) (v : BitVec 64) : (s.setAcc v).acc = v := by
  simp only [State.acc, State.setAcc_hi, State.setAcc_lo]
  apply BitVec.eq_of_getLsbD_eq
  intro i hi
  simp only [BitVec.getLsbD_append, BitVec.getLsbD_extractLsb']
  by_cases h : i < 32
  · simp [h]
  · have : i - 32 < 32 := by omega
    have h2 : 32 + (i - 32) = i := by omega
    simp [h, this, h2]

end Sys2Proof.Machine
end

