-- ==== Sys2Proof/Laws/Ops.lean ====
section
/-!
SUPPORT. One lemma for each shared operation that says once what it can do: the free choices, the operands, the hazards, the results
of the plain instructions, the bus, the write buffer, loads and stores.
-/

namespace Sys2Proof.Machine

/-! ## Free choices and operands -/

/-- A choice without alternatives is the current value. -/
@[simp] theorem State.choose_nil {α : Type} [DecidableEq α] (s : State) (tag : Nat) (cur : α) : s.choose tag cur [] = cur := rfl

/-- A choice is the current value or one of the alternatives. -/
theorem State.choose_mem {α : Type} [DecidableEq α] (s : State) (tag : Nat) (cur : α) (olds : List α) :
    s.choose tag cur olds ∈ cur :: olds := by
  unfold State.choose
  split
  · exact List.mem_cons_self
  · have h : (s.free tag).toNat % (olds.length + 1) < (cur :: olds).length := Nat.mod_lt _ (Nat.succ_pos _)
    simp only [List.getD_eq_getElem?_getD, List.getElem?_eq_getElem h, Option.getD_some]
    exact List.getElem_mem h

/-- An operand is the register, unless the newest trace is a load of it. -/
theorem State.opReg_of_not_loaded (s : State) (r : Reg) (h : ∀ rt old k ts, s.recent ≠ .loaded rt old k :: ts) :
    s.opReg r = s.reg r := by
  unfold State.opReg
  split
  · rename_i rt old k ts heq
    exact absurd heq (h rt old k ts)
  · rfl

/-- After a load of `q` an operand is the register, or it is `q` and the value from before the load. -/
theorem State.opReg_loaded (s : State) (r q : Reg) (old : Word) (k : LoadKind) (ts : List Trace)
    (h : s.recent = .loaded q old k :: ts) : s.opReg r = s.reg r ∨ (r = q ∧ r ≠ 0 ∧ s.opReg r = old) := by
  unfold State.opReg
  rw [h]
  dsimp only
  split
  · rename_i hq
    simp only [Bool.and_eq_true, decide_eq_true_eq, bne_iff_ne] at hq
    have hm := s.choose_mem tagLoadDelay (s.reg r) [old]
    simp only [List.mem_cons, List.not_mem_nil, or_false] at hm
    exact hm.imp_right fun h => ⟨hq.1.symm, hq.2, h⟩
  · exact .inl rfl

/-! ## States without hazards -/

/-- The window of a state without hazards holds no coprocessor 0 write. -/
theorem NoHazards.window {s : State} (h : NoHazards s) {α : Type} (f : Trace → Option α) (hf : ∀ t, (∀ w, t ≠ .cp0 w) → f t = none) :
    s.window.filterMap f = [] := by
  rw [List.filterMap_eq_nil_iff]
  exact fun t ht => hf t (h t (List.mem_of_mem_take ht)).2

theorem tlbBefore_nil (tlb : Vector TlbEntry 32) : ∀ ts : List Trace, (∀ t ∈ ts, ∀ w, t ≠ .cp0 w) → tlbBefore tlb ts = []
  | [], _ => rfl
  | t :: ts, h => by
    have ih := tlbBefore_nil tlb ts fun x hx => h x (List.mem_cons_of_mem _ hx)
    have ht := h t List.mem_cons_self
    cases t <;> first | exact absurd rfl (ht _) | simpa [tlbBefore] using ih

theorem NoHazards.opReg {s : State} (h : NoHazards s) (r : Reg) : s.opReg r = s.reg r := by
  refine s.opReg_of_not_loaded r fun rt old k ts he => ?_
  exact (h (.loaded rt old k) (he ▸ List.mem_cons_self)).1 rt old k rfl

theorem NoHazards.mergeReg {s : State} (h : NoHazards s) (r : Reg) (k : LoadKind) : s.mergeReg r k = s.reg r := by
  unfold State.mergeReg
  split
  · rename_i rt old k' ts he
    exact absurd rfl ((h (.loaded rt old k') (he ▸ List.mem_cons_self)).1 rt old k')
  · exact h.opReg r

theorem NoHazards.seenEntryHi {s : State} (h : NoHazards s) (tag : Nat) (a b : Bool) : s.seenEntryHi tag a b = s.cp0.entryHi := by
  rw [State.seenEntryHi, h.window _ fun t ht => by cases t <;> first | exact absurd rfl (ht _) | rfl, State.choose_nil]

theorem NoHazards.seenEntryLo {s : State} (h : NoHazards s) (a : Bool) : s.seenEntryLo a = s.cp0.entryLo := by
  rw [State.seenEntryLo, h.window _ fun t ht => by cases t <;> first | exact absurd rfl (ht _) | rfl, State.choose_nil]

theorem NoHazards.seenIndex {s : State} (h : NoHazards s) (a : Bool) : s.seenIndex a = s.cp0.index := by
  rw [State.seenIndex, h.window _ fun t ht => by cases t <;> first | exact absurd rfl (ht _) | rfl, State.choose_nil]

theorem NoHazards.seenTlb {s : State} (h : NoHazards s) (tag : Nat) : s.seenTlb tag = s.tlb := by
  rw [State.seenTlb, State.window, tlbBefore_nil _ _ fun t ht => (h t (List.mem_of_mem_take ht)).2, State.choose_nil]

/-- Without a write of Status in the window its bits are seen as they are. -/
theorem StatusSettled.seenStatus {s : State} (h : StatusSettled s) (tag : Nat) (m : Word) : s.seenStatus tag m = s.cp0.status &&& m := by
  have hn : s.window.filterMap oldStatus = [] := by
    rw [List.filterMap_eq_nil_iff]
    intro t ht
    cases t with
    | cp0 w => cases w <;> first | rfl | exact absurd ht (h _)
    | _ => rfl
  rw [State.seenStatus, hn, List.map_nil, State.choose_nil]

theorem NoHazards.statusSettled {s : State} (h : NoHazards s) : StatusSettled s :=
  fun _ hm => (h _ (List.mem_of_mem_take hm)).2 _ rfl

theorem NoHazards.seenStatus {s : State} (h : NoHazards s) (tag : Nat) (m : Word) : s.seenStatus tag m = s.cp0.status &&& m :=
  h.statusSettled.seenStatus tag m

/-- Without an `mfhi` or `mflo` among them, the traces spoil no register. -/
theorem State.spoil_settled (s : State) : ∀ ts : List Trace, ts.filterMap Trace.hiLo = [] → s.spoil ts = .ok s
  | [], _ => by simp only [State.spoil]
  | t :: ts, h => by
    rw [List.filterMap_eq_nil_iff] at h
    have ih := s.spoil_settled ts (List.filterMap_eq_nil_iff.mpr fun x hx => h x (List.mem_cons_of_mem _ hx))
    have ht := h t List.mem_cons_self
    cases t <;> first | (simp [Trace.hiLo] at ht; done) | (simp only [State.spoil]; exact ih)

/-- A write of HI or LO in a settled state completes. -/
theorem State.writeHiLo_settled {s : State} (h : HiLoSettled s) (k : State → State) : s.writeHiLo k = .next ((k s).retire .plain) := by
  rw [State.writeHiLo, s.spoil_settled _ h]

/-! ## Completing an instruction -/

/-- Completing an instruction keeps everything but the program counter. -/
theorem State.retire_keeps (s : State) (t : Trace) :
    KeepsRegs s (s.retire t) ∧ KeepsAcc s (s.retire t) ∧ Keeps s (s.retire t) ∧ Advances s (s.retire t) :=
  ⟨fun r => s.retire_reg t r, ⟨rfl, rfl⟩, ⟨rfl, rfl, rfl, fun _ => rfl, rfl, rfl, rfl, rfl, rfl⟩, ⟨rfl, rfl, rfl, rfl⟩⟩

/-- Writing a register and completing: the frame of every plain result. -/
theorem State.setReg_retire_frame (s : State) (rd : Reg) (v : Word) (t : Trace) :
    WritesReg s ((s.setReg rd v).retire t) rd v ∧ KeepsAcc s ((s.setReg rd v).retire t) ∧ Keeps s ((s.setReg rd v).retire t) ∧
      Advances s ((s.setReg rd v).retire t) :=
  ⟨fun r => by rw [State.retire_reg, State.setReg_reg], ⟨rfl, rfl⟩, ⟨rfl, rfl, rfl, fun _ => rfl, rfl, rfl, rfl, rfl, rfl⟩,
    ⟨rfl, rfl, rfl, rfl⟩⟩

/-- An instruction that answers `alu` writes its result and nothing else. -/
theorem WritesOnly.of_alu {i : Instr} {s : State} {rd : Reg} {v w : Word} (h : exec i s = s.alu rd w) (hv : w = v) :
    WritesOnly i s rd v :=
  hv ▸ ⟨_, h, s.setReg_retire_frame rd w .plain⟩

/-- A transfer of control outside a delay slot takes place. -/
theorem State.transfer_free {s : State} (h : s.ds = false) (k : State) : s.transfer k = .next k := by
  simp [State.transfer, h]

/-- A transfer of control in a delay slot is refused. -/
theorem State.transfer_slot {s : State} (h : s.ds = true) (k : State) : s.transfer k = .refused .branchInDelaySlot := by
  simp [State.transfer, h]

/-- The frame of a taken branch or jump. -/
theorem State.jumpTo_keeps (s : State) (target : Word) :
    KeepsRegs s (s.jumpTo target) ∧ KeepsAcc s (s.jumpTo target) ∧ Keeps s (s.jumpTo target) ∧ Delays s (s.jumpTo target) target :=
  ⟨fun r => s.jumpTo_reg target r, ⟨rfl, rfl⟩, ⟨rfl, rfl, rfl, fun _ => rfl, rfl, rfl, rfl, rfl, rfl⟩, ⟨rfl, rfl, rfl, rfl⟩⟩

/-- The frame of a branch that is not taken. -/
theorem State.fallThrough_keeps (s : State) :
    KeepsRegs s s.fallThrough ∧ KeepsAcc s s.fallThrough ∧ Keeps s s.fallThrough ∧ Delays s s.fallThrough (s.npc + 4) :=
  ⟨fun r => s.fallThrough_reg r, ⟨rfl, rfl⟩, ⟨rfl, rfl, rfl, fun _ => rfl, rfl, rfl, rfl, rfl, rfl⟩, ⟨rfl, rfl, rfl, rfl⟩⟩

/-- The frame of a likely branch that is not taken. -/
theorem State.nullify_keeps (s : State) :
    KeepsRegs s s.nullify ∧ KeepsAcc s s.nullify ∧ Keeps s s.nullify ∧ Nullifies s s.nullify :=
  ⟨fun r => s.nullify_reg r, ⟨rfl, rfl⟩, ⟨rfl, rfl, rfl, fun _ => rfl, rfl, rfl, rfl, rfl, rfl⟩, ⟨rfl, rfl, rfl, rfl⟩⟩

/-- The frame of writing a register on top of another update. -/
theorem State.setReg_writes (s : State) (rd : Reg) (v : Word) : WritesReg s (s.setReg rd v) rd v :=
  fun r => s.setReg_reg rd r v

/-! ## Translation -/

/-- The mode is KUc unless a write of Status is in the window. -/
theorem StatusSettled.userMode {s : State} (h : StatusSettled s) (tag : Nat) : s.userMode tag = bitOf s.cp0.status 1 := by
  rw [State.userMode, h.seenStatus]
  simp [bitOf]

/-- An unmapped address in kernel mode translates without the TLB (R106). -/
theorem State.translate_direct {s : State} {k : AccessKind} {va pa : Word} {cached : Bool} (hu : s.userMode (k.draw tagStatus) = false)
    (h : segmentOf va = .direct pa cached) : s.translate k va = .ok (pa, cached) s := by
  simp [State.translate, hu, h]

/-- A mapped address translates by the one entry that is picked (R110). -/
theorem State.translate_mapped {s : State} {k : AccessKind} {va : Word}
    (hu : va.getLsbD 31 = false ∨ s.userMode (k.draw tagStatus) = false) (h : segmentOf va = .mapped) :
    s.translate k va =
      let t := s.seenTlb (k.draw tagTlb)
      let pid := (s.seenEntryHi (k.draw tagEntryHi) true true).extractLsb' 6 6
      match s.pickHit (k.draw tagMultiHit) (tlbHits t (va.extractLsb' 12 20) pid) with
      | none => .exc (k.tlbError va true) s
      | some i =>
        let e := t[i.toNat]'i.isLt
        if !e.v then .exc (k.tlbError va false) s
        else if k = .store && !e.d then .exc (.mod va) s
        else .ok (e.pfn ++ va.extractLsb' 0 12, !e.n) s := by
  unfold State.translate
  have hc : (va.getLsbD 31 && s.userMode (k.draw tagStatus)) = false := by
    rcases hu with h | h <;> rw [h]
    · rfl
    · exact Bool.and_false _
  rw [hc, h]
  rfl

/-- In user mode an address with bit 31 set is an Address Error (R107). -/
theorem State.translate_user {s : State} {k : AccessKind} {va : Word} (hu : s.userMode (k.draw tagStatus) = true)
    (h : va.getLsbD 31 = true) : s.translate k va = .exc (k.addressError va) s := by
  simp [State.translate, hu, h]

/-! ## Transactions and the write buffer -/

/-- Starting and ending a transaction change the modules alone. -/
theorem State.startBus_eq (s : State) (u : BusUser) (t : Target) (be : BitVec 4) (write : Bool) :
    s.startBus u t be write = { s with dev := (s.startBus u t be write).dev } := by simp only [State.startBus]

theorem State.endBus_eq (s : State) : s.endBus = { s with dev := s.endBus.dev } := by simp only [State.endBus]

theorem State.acknowledge_eq {s v : State} {t : Target} :
    (∀ ack, s.acknowledge t = .ok ack v → v = { s with dev := v.dev }) ∧ (s.acknowledge t = .wait v → v = s) := by
  have h := s.endBus_eq
  unfold State.acknowledge
  split
  · exact ⟨fun _ e => by cases e; exact h, nofun⟩
  · split
    · exact ⟨fun _ e => by cases e; exact h, nofun⟩
    · exact ⟨nofun, fun e => by cases e; rfl⟩

/-- A transaction that completes, or waits, changes the modules alone. -/
theorem State.transact_eq {s v : State} {u : BusUser} {t : Target} {be : BitVec 4} {write : Bool} :
    (∀ ack, s.transact u t be write = .ok ack v → v = { s with dev := v.dev }) ∧
    (s.transact u t be write = .wait v → v = { s with dev := v.dev }) := by
  unfold State.transact
  split
  · exact ⟨nofun, fun e => by cases e; rfl⟩
  · split
    · have h := s.startBus_eq u t be write
      refine ⟨fun ack e => ?_, fun e => ?_⟩
      · rw [State.acknowledge_eq.1 ack e, h]
      · rw [State.acknowledge_eq.2 e, h]
    · exact ⟨fun ack e => State.acknowledge_eq.1 ack e, fun e => by rw [State.acknowledge_eq.2 e]⟩

/-- A transaction raises no exception and refuses nothing. -/
theorem State.transact_cases (s : State) (u : BusUser) (t : Target) (be : BitVec 4) (write : Bool) :
    (∃ ack v, s.transact u t be write = .ok ack v) ∨ ∃ v, s.transact u t be write = .wait v := by
  have h : ∀ w : State, (∃ ack v, w.acknowledge t = .ok ack v) ∨ ∃ v, w.acknowledge t = .wait v := by
    intro w
    unfold State.acknowledge
    split
    · exact .inl ⟨_, _, rfl⟩
    · split
      · exact .inl ⟨_, _, rfl⟩
      · exact .inr ⟨_, rfl⟩
  unfold State.transact
  split
  · exact .inr ⟨_, rfl⟩
  · exact h _

/-- A transaction that has just started has not timed out, if something is there to acknowledge it (R242). -/
theorem Biu.start_timedOut (b : Biu) (u : BusUser) {t : Target} (ht : t ≠ .silent) : (b.start u t).timedOut = false := by
  have he : (b.start u t).enWatch = b.enWatch := Biu.start_mc4 b u t 24 (by decide)
  have hw : b.enWatch = true → (b.start u t).watch = fieldOf b.mc4 20 4 ++ 0x3F#6 := fun h => by simp [Biu.start, h, ht]
  unfold Biu.timedOut
  rw [he]
  cases h : b.enWatch
  · rfl
  · rw [hw h]
    generalize fieldOf b.mc4 20 4 = x
    revert x
    decide

/-- A transaction in a bank whose memory is awake, in a step that keeps the bus, while no external master has or asks for it, completes and leaves its marks in the Bus
Interface Unit alone. -/
theorem State.transact_bank {s : State} {u : BusUser} {second : Bool} {key : Nat} {a : Attach} (hh : s.dev.biu.held = none)
    (ho : s.dev.biu.turn = .whole) (hr : s.dev.busRequest = false) (hg : s.dev.granted = false) (hp : s.dev.biu.powerDown = false)
    (be : BitVec 4) (write : Bool) :
    ∃ w y z, s.transact u (.cells (.bank second) key a) be write =
      .ok true { s with dev := { s.dev with biu := { s.dev.biu with watch := w, held := none, heeded := none, woken := y, sdIdle := z } } } := by
  have hf : s.dev.busFree u = true := by simp [Dev.busFree, ho, hh, hg]
  have hs : s.startBus u (.cells (.bank second) key a) be write =
      { s with dev := { s.dev with biu := s.dev.biu.start u (.cells (.bank second) key a) } } := by
    simp [State.startBus, Biu.strobes, Region.card, Biu.start, hp]
  let b := s.dev.biu.start u (.cells (.bank second) key a)
  refine ⟨b.watch, b.woken, b.sdIdle, ?_⟩
  simp only [State.transact, hf, Bool.not_true, Bool.false_eq_true, if_false, hh, Option.isNone_none, if_true, hs]
  have ha : ∀ d : Dev, d.acks (.cells (.bank second) key a) = true := fun _ => rfl
  have hw : (s.dev.biu.start u (.cells (.bank second) key a)).timedOut = false := Biu.start_timedOut _ _ nofun
  simp only [State.acknowledge, hw, ha, Bool.false_eq_true, if_false, if_true, State.endBus]
  have hn : (s.dev.biu.start u (.cells (.bank second) key a)).turn = .whole := ho
  have hq : ∀ x : BusTurn, Dev.busRequest
      { s.dev with biu := { s.dev.biu.start u (.cells (.bank second) key a) with held := none, heeded := none, turn := x } } = false := fun _ => hr
  simp only [hq, Bool.false_eq_true, if_false]
  simp [b, Biu.start, hp, ho, BusTurn.next]

/-- An empty write buffer drains at once. -/
theorem State.drainAll_empty {s : State} (h : s.wb = []) : s.drainAll = .ok () s := by
  simp [State.drainAll, h, State.drain]

/-- A write that finds space in the write buffer does not wait. -/
theorem State.makeRoom_space {s : State} (h : s.wb.length < 4) : s.makeRoom = .ok () s := by
  simp [State.makeRoom, h]

/-- A write that finds the write buffer full performs the oldest entry first. -/
theorem State.makeRoom_full {s : State} (hl : ¬ s.wb.length < 4) : s.makeRoom = s.drainOne := by
  simp [State.makeRoom, hl]

/-- A read of memory or of a ROM gives the word of its cells; the transaction is all that happens. -/
theorem State.busRead_cells {s v : State} {u : BusUser} {pa : Word} {be : BitVec 4} {r : Region} {key : Nat} {a : Attach}
    (h : s.target pa = .ok (.cells r key a)) (ha : a ≠ .nothing) (ht : s.transact u (.cells r key a) be false = .ok true v) (e : Exc) :
    s.busRead u pa be e = .ok (s.mem.readWord s.board.bigEndian key) v := by
  have hv := State.transact_eq.1 _ ht
  have hm : v.mem = s.mem := by rw [hv]
  have hb : v.board = s.board := by rw [hv]
  cases a
  · exact absurd rfl ha
  all_goals simp only [State.busRead, h, ht, Res.bind, Bool.not_true, Bool.false_eq_true, if_false, hm, hb]

/-- A write of memory stores the enabled lanes; a write of a ROM or where no device answers stores nothing. -/
theorem State.busWrite_cells {s v : State} {e : WbEntry} {r : Region} {key : Nat} {a : Attach} (h : s.target e.pa = .ok (.cells r key a))
    (ht : s.transact .buffer (.cells r key a) e.be true = .ok true v) :
    s.busWrite e = .ok () (if a = .ram then v.storeCells key e.data e.be else v) := by
  cases a <;> simp [State.busWrite, h, ht, Res.bind]

/-- The check of a function register access passes for any other address. -/
theorem State.registerCheck_memory {s : State} {pa : Word} (h : s.mapAhead.isRegister pa = false) (cached : Bool) (be : BitVec 4) :
    s.registerCheck pa cached be = none := by
  simp [State.registerCheck, h]

/-! ## The data cache -/

/-- A store that finds no word in the data cache leaves it alone. -/
theorem State.cacheStore_miss {s : State} {pa : Word} (h : s.cachedWord pa = none) (data : Word) (be : BitVec 4) (cached : Bool) :
    s.cacheStore pa data be cached = s := by
  unfold State.cacheStore
  split
  · rfl
  · rename_i p
    simp only [State.cachedWord, p, Option.bind_some] at h
    rw [h]

/-- With an empty write buffer the map ahead is the map. -/
theorem State.mapAhead_empty {s : State} (h : s.wb = []) : s.mapAhead = s.dev.biu := by
  simp [State.mapAhead, h]

/-- A place is a matter of the map, the write buffer and the board alone. -/
theorem State.place_congr {s t : State} (hd : t.dev.biu = s.dev.biu) (hw : t.wb = s.wb) (hb : t.board = s.board) (pa : Word) :
    t.place pa = s.place pa := by
  simp only [State.place, State.mapAhead, hd, hw, hb]

end Sys2Proof.Machine
end

