-- ==== Sys2Proof/Laws/Bus.lean ====
section
/-!
SUPPORT. What the bus operations leave alone, said once: reads, writes, draining and DMA change only memory, the caches, the write buffer
and the modules. The loads and stores over them.
-/

namespace Sys2Proof.Machine

/-- Every state that a part of an instruction can end in satisfies `P`. -/
def Res.All {α : Type} (P : State → Prop) : Res α → Prop
  | .ok _ s => P s
  | .exc _ s => P s
  | .wait s => P s
  | .refused _ => True

theorem Res.All.bind {α β : Type} {P Q : State → Prop} {r : Res α} {k : α → State → Res β} (h : r.All P) (hk : ∀ a s, P s → (k a s).All Q)
    (he : ∀ s, P s → Q s) : (r.bind k).All Q := by
  cases r with
  | ok a s => exact hk a s h
  | exc e s => exact he s h
  | wait s => exact he s h
  | refused r => trivial

theorem Res.All.mono {α : Type} {P Q : State → Prop} {r : Res α} (h : r.All P) (hq : ∀ s, P s → Q s) : r.All Q := by
  cases r with
  | ok a s => exact hq s h
  | exc e s => exact hq s h
  | wait s => exact hq s h
  | refused r => trivial

/-- What every bus operation leaves alone. -/
structure SameCore (s t : State) : Prop where
  gpr : t.gpr = s.gpr
  hi : t.hi = s.hi
  lo : t.lo = s.lo
  pc : t.pc = s.pc
  npc : t.npc = s.npc
  ds : t.ds = s.ds
  cp0 : t.cp0 = s.cp0
  tlb : t.tlb = s.tlb
  recent : t.recent = s.recent
  pending : t.pending = s.pending
  fresh : t.fresh = s.fresh
  board : t.board = s.board
  agenda : t.agenda = s.agenda
  draws : t.draws = s.draws

theorem SameCore.refl (s : State) : SameCore s s := ⟨rfl, rfl, rfl, rfl, rfl, rfl, rfl, rfl, rfl, rfl, rfl, rfl, rfl, rfl⟩

theorem SameCore.trans {s t u : State} (h : SameCore s t) (k : SameCore t u) : SameCore s u :=
  ⟨k.gpr.trans h.gpr, k.hi.trans h.hi, k.lo.trans h.lo, k.pc.trans h.pc, k.npc.trans h.npc, k.ds.trans h.ds, k.cp0.trans h.cp0,
    k.tlb.trans h.tlb, k.recent.trans h.recent, k.pending.trans h.pending, k.fresh.trans h.fresh, k.board.trans h.board,
    k.agenda.trans h.agenda, k.draws.trans h.draws⟩

/-- The registers read as before. -/
theorem SameCore.reg {s t : State} (h : SameCore s t) (r : Reg) : t.reg r = s.reg r := State.reg_congr h.gpr r

/-- A change of memory, the caches, the write buffer and the modules. -/
theorem SameCore.of_parts {s t : State} (mem : Mem) (wb : List WbEntry) (ic : Vector (Option ILine) 256) (dc : Vector DSet 128) (d : Dev)
    (h : t = { s with mem := mem, wb := wb, icache := ic, dcache := dc, dev := d }) : SameCore s t := by
  subst h
  exact ⟨rfl, rfl, rfl, rfl, rfl, rfl, rfl, rfl, rfl, rfl, rfl, rfl, rfl, rfl⟩

/-- A single bus transaction: beside what every bus operation leaves alone, the write buffer and the instruction cache; the memory keeps its
canonical form. -/
structure OneTransaction (s t : State) : Prop extends SameCore s t where
  wb : t.wb = s.wb
  icache : t.icache = s.icache
  mem : s.mem.wf = true → t.mem.wf = true

theorem OneTransaction.of_dev {s t : State} (h : t = { s with dev := t.dev }) : OneTransaction s t :=
  ⟨SameCore.of_parts s.mem s.wb s.icache s.dcache t.dev h, by rw [h], by rw [h], fun hm => by rw [h]; exact hm⟩

/-- Up to its acknowledge a transaction changes the modules alone. -/
theorem State.transact_frame (s : State) (u : BusUser) (t : Target) (be : BitVec 4) (write : Bool) :
    (s.transact u t be write).All fun v => v = { s with dev := v.dev } := by
  rcases s.transact_cases u t be write with ⟨ack, v, h⟩ | ⟨v, h⟩ <;> rw [h]
  · exact State.transact_eq.1 ack h
  · exact State.transact_eq.2 h

/-- A write transaction. -/
theorem State.busWrite_frame (s : State) (e : WbEntry) : (s.busWrite e).All (OneTransaction s) := by
  unfold State.busWrite
  split
  · trivial
  · rename_i t _
    refine (s.transact_frame .buffer t e.be true).bind (fun ack v hv => ?_) fun v hv => OneTransaction.of_dev hv
    have hd : ∀ d : Dev, OneTransaction s { v with dev := d } := fun d => OneTransaction.of_dev (by rw [hv])
    split
    · dsimp only
      split
      · exact ⟨SameCore.of_parts s.mem s.wb s.icache _ _ (by rw [hv]; rfl), by rw [hv]; rfl, by rw [hv]; rfl, fun h => by rw [hv]; exact h⟩
      · exact hd _
    · split
      · exact ⟨SameCore.of_parts _ s.wb s.icache s.dcache v.dev (by rw [hv]; rfl), by rw [hv]; rfl, by rw [hv]; rfl,
          fun h => State.storeCells_wf _ _ _ _ (by rw [hv]; exact h)⟩
      · split
        · trivial
        · split
          · exact hd _
          · trivial
      · exact hd _
      · exact OneTransaction.of_dev hv

/-- A read transaction: memory stays. -/
theorem State.busRead_frame (s : State) (u : BusUser) (pa : Word) (be : BitVec 4) (e : Exc) :
    (s.busRead u pa be e).All fun t => t = { s with dev := t.dev } := by
  unfold State.busRead
  split
  · trivial
  · rename_i t _
    refine (s.transact_frame u t be false).bind (fun ack v hv => ?_) fun v hv => hv
    split
    · exact hv
    · split
      · trivial
      · exact hv
      · split
        · trivial
        · split
          · show ({ v with dev := _ } : State) = _; rw [hv]
          · trivial
      · trivial
      · exact hv

/-- Several transactions and writes into the buffer: the buffer grows to no more than four entries. -/
structure Transactions (s t : State) : Prop extends SameCore s t where
  wb : s.wb.length ≤ 4 → t.wb.length ≤ 4
  mem : s.mem.wf = true → t.mem.wf = true

theorem Transactions.refl (s : State) : Transactions s s := ⟨SameCore.refl s, id, id⟩

theorem Transactions.trans {s t u : State} (h : Transactions s t) (k : Transactions t u) : Transactions s u :=
  ⟨h.toSameCore.trans k.toSameCore, fun x => k.wb (h.wb x), fun x => k.mem (h.mem x)⟩

theorem OneTransaction.transactions {s t : State} (h : OneTransaction s t) : Transactions s t :=
  ⟨h.toSameCore, fun x => h.wb ▸ x, h.mem⟩

theorem Transactions.of_dev {s t : State} (h : t = { s with dev := t.dev }) : Transactions s t := (OneTransaction.of_dev h).transactions

/-- A change of the caches and the modules. -/
theorem Transactions.of_caches {s t : State} (ic : Vector (Option ILine) 256) (dc : Vector DSet 128) (d : Dev)
    (h : t = { s with icache := ic, dcache := dc, dev := d }) : Transactions s t :=
  ⟨SameCore.of_parts s.mem s.wb ic dc d h, fun x => by rw [h]; exact x, fun x => by rw [h]; exact x⟩

/-- The rule for chaining operations. -/
theorem Res.All.chain {α β : Type} {s : State} {r : Res α} {k : α → State → Res β} (h : r.All (Transactions s))
    (hk : ∀ a t, (k a t).All (Transactions t)) : (r.bind k).All (Transactions s) :=
  h.bind (fun a t ht => (hk a t).mono fun _ hu => ht.trans hu) fun _ x => x

/-- The write buffer performs its oldest entry, or waits with all of them. -/
theorem State.drainOne_frame (s : State) :
    s.drainOne.All (Transactions s) ∧ ∀ t, s.drainOne = .ok () t → t.wb = s.wb.tail ∧ t.icache = s.icache := by
  unfold State.drainOne
  split
  · rename_i h
    exact ⟨Transactions.refl s, fun t ht => by injection ht with _ ht; subst ht; exact ⟨by simp [h], rfl⟩⟩
  · rename_i e es h
    have hb := s.busWrite_frame e
    refine ⟨hb.bind (fun _ t ht => ?_) fun _ ht => ht.transactions, fun t ht => ?_⟩
    · refine ht.transactions.trans ⟨SameCore.of_parts t.mem es t.icache t.dcache t.dev rfl, fun hl => ?_, id⟩
      have : t.wb.length = es.length + 1 := by rw [ht.wb, h]; rfl
      show es.length ≤ 4
      omega
    · cases hw : s.busWrite e with
      | ok a v =>
        rw [hw] at ht hb
        injection ht with _ ht
        subst ht
        exact ⟨by rw [h]; rfl, hb.icache⟩
      | exc x v => rw [hw] at ht; cases ht
      | wait v => rw [hw] at ht; cases ht
      | refused r => rw [hw] at ht; cases ht

theorem State.drainOne_transactions (s : State) : s.drainOne.All (Transactions s) := s.drainOne_frame.1

/-- Draining `n` entries empties a buffer of at most `n`. -/
theorem State.drain_frame (n : Nat) (s : State) : (State.drain n s).All (Transactions s) ∧
    (s.wb.length ≤ n → ∀ t, State.drain n s = .ok () t → t.wb = []) := by
  induction n generalizing s with
  | zero => exact ⟨Transactions.refl s, fun h t ht => by injection ht with _ h2; subst h2; exact List.eq_nil_of_length_eq_zero (by omega)⟩
  | succ n ih =>
    unfold State.drain
    split
    · rename_i h
      refine ⟨Transactions.refl s, fun _ t ht => ?_⟩
      injection ht with _ h2; subst h2; simpa using h
    · refine ⟨s.drainOne_transactions.chain fun _ t => (ih t).1, fun hl t ht => ?_⟩
      have hf := s.drainOne_frame.2
      cases hd : s.drainOne with
      | ok a u =>
        rw [hd] at ht
        exact (ih u).2 (by rw [(hf u hd).1, List.length_tail]; omega) t ht
      | exc e u => rw [hd] at ht; cases ht
      | wait u => rw [hd] at ht; cases ht
      | refused r => rw [hd] at ht; cases ht

/-- Draining the write buffer. -/
theorem State.drainAll_frame (s : State) : s.drainAll.All (Transactions s) ∧ ∀ t, s.drainAll = .ok () t → t.wb = [] :=
  ⟨(State.drain_frame _ s).1, (State.drain_frame _ s).2 (Nat.le_refl _)⟩

/-- The result is no exception. -/
def Res.quiet {α : Type} : Res α → Bool
  | .exc _ _ => false
  | _ => true

/-- A write transaction raises no exception. -/
theorem State.busWrite_quiet (s : State) (w : WbEntry) : (s.busWrite w).quiet = true := by
  unfold State.busWrite
  split
  · rfl
  · rename_i t _
    rcases s.transact_cases .buffer t w.be true with ⟨ack, v, h⟩ | ⟨v, h⟩ <;> rw [h]
    · simp only [Res.bind]
      split
      · split <;> rfl
      · split
        · rfl
        · split
          · rfl
          · split <;> rfl
        · rfl
        · rfl
    · rfl

/-- The write buffer raises no exception: a failed write sets WRBUSERRINT (R188). -/
theorem State.drainOne_quiet (s : State) : s.drainOne.quiet = true := by
  unfold State.drainOne
  split
  · rfl
  · rename_i e _ _
    have h := s.busWrite_quiet e
    cases hw : s.busWrite e with
    | exc x t => rw [hw] at h; cases h
    | _ => rfl

theorem State.drain_quiet (n : Nat) : ∀ s : State, (State.drain n s).quiet = true := by
  induction n with
  | zero => intro s; rfl
  | succ n ih =>
    intro s
    unfold State.drain
    split
    · rfl
    · have h := s.drainOne_quiet
      cases hd : s.drainOne with
      | ok a u => exact ih u
      | exc e u => rw [hd] at h; cases h
      | wait u => rfl
      | refused r => rfl

theorem State.drainAll_quiet (s : State) : s.drainAll.quiet = true := State.drain_quiet _ s

/-- Waiting for space in the write buffer: there is space then. -/
theorem State.makeRoom_frame (s : State) :
    s.makeRoom.All (Transactions s) ∧ (s.wb.length ≤ 4 → ∀ t, s.makeRoom = .ok () t → t.wb.length < 4) := by
  unfold State.makeRoom
  split
  · rename_i h
    exact ⟨Transactions.refl s, fun _ t ht => by injection ht with _ ht; subst ht; exact h⟩
  · exact ⟨s.drainOne_transactions, fun hl t ht => by rw [(s.drainOne_frame.2 t ht).1, List.length_tail]; omega⟩

/-- A write waits for space, reaches the caches, and enters the buffer. -/
theorem State.entry_frame (s : State) (e : WbEntry) (f : State → State)
    (hf : ∀ t, f t = { t with icache := (f t).icache, dcache := (f t).dcache }) :
    (s.makeRoom.bind fun _ t => .ok () ((f t).append e)).All (Transactions s) := by
  have h := s.makeRoom_frame
  cases hr : s.makeRoom with
  | ok a t =>
    rw [hr] at h
    have hw : (f t).wb = t.wb := by rw [hf t]
    have hm : (f t).mem = t.mem := by rw [hf t]
    refine ⟨h.1.toSameCore.trans (SameCore.of_parts t.mem (t.wb ++ [e]) (f t).icache (f t).dcache t.dev ?_), fun hl => ?_, fun hl => ?_⟩
    · rw [State.append, hw, hf t]
    · have := h.2 hl t rfl
      simp only [State.append_wb, hw, List.length_append, List.length_singleton]
      omega
    · rw [State.append_mem, hm]
      exact h.1.mem hl
  | exc x t => rw [hr] at h; exact h.1
  | wait t => rw [hr] at h; exact h.1
  | refused r => trivial

/-- A burst of reads. -/
theorem State.burstRead_frame (u : BusUser) (e : Exc) (n : Nat) (s : State) (pa : Word) :
    (s.burstRead u pa e n).All fun t => t = { s with dev := t.dev } := by
  induction n generalizing s pa with
  | zero => rfl
  | succ n ih =>
    unfold State.burstRead
    refine (s.busRead_frame u pa 0xF e).bind (fun w t ht => ?_) fun _ h => h
    have key : ∀ v : State, v = { t with dev := v.dev } → v = { s with dev := v.dev } := fun v hv => by rw [hv, ht]
    exact (ih t (pa + 4)).bind (fun ws v hv => key v hv) fun v hv => key v hv

/-- A cached fetch. -/
theorem State.cachedFetch_frame (s : State) (pa : Word) : (s.cachedFetch pa).All (Transactions s) := by
  unfold State.cachedFetch
  split
  · exact Transactions.refl s
  · exact (State.burstRead_frame _ _ _ s _).bind (fun ws t ht =>
      (Transactions.of_dev ht).trans (Transactions.of_caches _ t.dcache t.dev rfl)) fun t ht => Transactions.of_dev ht

/-- A cached load. -/
theorem State.cachedLoad_frame (s : State) (pa : Word) : (s.cachedLoad pa).All (Transactions s) := by
  unfold State.cachedLoad
  split
  · exact Transactions.refl s
  · refine s.drainAll_frame.1.chain fun _ t => ?_
    exact (State.burstRead_frame _ _ _ t _).bind (fun ws v hv =>
      (Transactions.of_dev hv).trans (Transactions.of_caches v.icache _ v.dev rfl)) fun v hv => Transactions.of_dev hv

/-- Translation changes nothing. -/
theorem State.translate_frame (s : State) (k : AccessKind) (va : Word) : (s.translate k va).All (· = s) := by
  unfold State.translate
  split
  · rfl
  · split
    · rfl
    · dsimp only
      split
      · rfl
      · split
        · rfl
        · split <;> rfl

/-- The read of a load. -/
theorem State.dataRead_frame (s : State) (pa : Word) (cached : Bool) (be : BitVec 4) : (s.dataRead pa cached be).All (Transactions s) := by
  unfold State.dataRead
  split
  · split
    · trivial
    · exact s.cachedLoad_frame _
  · refine s.drainAll_frame.1.chain fun _ t => ?_
    split
    · trivial
    · exact (t.busRead_frame _ _ _ _).mono fun u h => Transactions.of_dev h

theorem State.loadWord_frame (s : State) (va : Word) (size : Nat) (be : BitVec 4) : (s.loadWord va size be).All (Transactions s) := by
  unfold State.loadWord
  split
  · exact Transactions.refl s
  · refine (s.translate_frame .load va).bind (fun p t ht => ?_) fun t ht => ht ▸ Transactions.refl s
    subst ht
    exact t.dataRead_frame _ _ _

/-- The write of a store. -/
theorem State.storeWord_frame (s : State) (va : Word) (size : Nat) (data : Word) (be : BitVec 4) :
    (s.storeWord va size data be).All (Transactions s) := by
  unfold State.storeWord
  split
  · exact Transactions.refl s
  · refine (s.translate_frame .store va).bind (fun p t ht => ?_) fun t ht => ht ▸ Transactions.refl s
    subst ht
    split
    · trivial
    · exact t.entry_frame _ (fun u => u.cacheStore _ _ _ _) fun u => by
        rw [u.cacheStore_icache]; exact u.cacheStore_eq _ _ _ _

/-- The fetch. -/
theorem State.fetch_frame (s : State) : s.fetch.All (Transactions s) := by
  unfold State.fetch
  split
  · exact Transactions.refl s
  · refine (s.translate_frame .fetch s.pc).bind (fun p t ht => ?_) fun t ht => ht ▸ Transactions.refl s
    subst ht
    split
    · split
      · trivial
      · exact t.cachedFetch_frame _
    · exact t.drainAll_frame.1.chain fun _ u => (u.busRead_frame _ _ _ _).mono fun v h => Transactions.of_dev h

/-! ## Loads and stores -/

/-- An aligned load whose word is read completes with `f` of that word in its register. -/
theorem Loads.of_load {i : Instr} {s u : State} {va w : Word} {be : BitVec 4} (h : ReadsWord s va be w u) {rt : Reg} {size : Nat}
    {kind : LoadKind} {f : Word → Word} (hi : exec i s = s.load rt va size be kind f) (hs : va.toNat % size = 0) :
    Loads i s u rt (f w) := by
  obtain ⟨pa, cached, ht, hd⟩ := h
  have hal : aligned size va = true := by simp [aligned, hs]
  have hl : s.loadWord va size be = .ok w u := by simp [State.loadWord, hal, ht, Res.bind, hd]
  have hf : Transactions s u := by
    have h := s.loadWord_frame va size be
    rw [hl] at h
    exact h
  have hk := u.setReg_retire_frame rt (f w) (.loaded rt (s.reg rt) kind)
  refine ⟨(u.setReg rt (f w)).retire (.loaded rt (s.reg rt) kind), by rw [hi, State.load, hl]; rfl, fun r => ?_, ⟨hf.hi, hf.lo⟩, hk.2.2.1, hf.cp0,
    hf.tlb, hf.board, hf.agenda, hf.npc, ?_, rfl, rfl⟩
  · rw [hk.1 r, hf.toSameCore.reg]
  · show u.npc + 4 = s.npc + 4
    rw [hf.npc]

/-- A store that may enter the write buffer does, once there is space, after the data cache has seen it: the entry holds the word address, the data
and the enabled lanes. -/
theorem State.store_cells {s u : State} {va pa : Word} {cached : Bool} {be : BitVec 4} (h : StoresCells s va pa cached be) {size : Nat}
    (hs : va.toNat % size = 0) (data : Word)
    (hu : s.makeRoom = .ok () u) :
    s.store va size data be = .next (State.retire
      ((u.cacheStore (wordAddr pa) data be cached).append { pa := wordAddr pa, data := data, be := be }) .plain) := by
  have hal : aligned size va = true := by simp [aligned, hs]
  simp only [State.store, State.storeWord, hal, Bool.not_true, Bool.false_eq_true, if_false, h.translates, Res.bind, h.admitted, hu, Res.outcome]

/-! ## DMA -/

/-- Changing the modules leaves the core and memory alone. -/
theorem State.mapDev_transactions (s : State) (f : Dev → Dev) : Transactions s (s.mapDev f) :=
  Transactions.of_dev (by simp only [State.mapDev])

/-- A DMA write. -/
theorem State.dmaWrite_frame (s : State) (pa data : Word) (be : BitVec 4) : (s.dmaWrite pa data be).All (Transactions s) := by
  unfold State.dmaWrite
  refine s.entry_frame _ (fun t => t.snoop pa t.dev.biu.disSnoop) fun t => ?_
  unfold State.snoop
  split <;> rfl

/-- A DMA read. -/
theorem State.dmaRead_frame (s : State) (pa : Word) (be : BitVec 4) : (s.dmaRead pa be).All (Transactions s) := by
  unfold State.dmaRead
  exact s.drainAll_frame.1.chain fun _ t => (t.busRead_frame _ _ _ _).mono fun v h => Transactions.of_dev h

theorem State.dmaBurst_frame (s : State) (pa : Word) : (s.dmaBurst pa).All (Transactions s) := by
  unfold State.dmaBurst
  exact s.drainAll_frame.1.chain fun _ t => (State.burstRead_frame _ _ _ t _).mono fun v h => Transactions.of_dev h

/-- A transfer is complete. -/
theorem State.dmaDone_frame (s : State) (u : DmaUnit) (f : Dev → Dev) : (s.dmaDone u f).All (Transactions s) :=
  s.mapDev_transactions _

/-- The DMA transaction of a module. -/
theorem State.dmaServe_frame (s : State) (j : DmaJob) : (s.dmaServe j).All (Transactions s) := by
  have hw : ∀ (pa d : Word) (be : BitVec 4) (u : DmaUnit) (f : Dev → Dev),
      ((s.dmaWrite pa d be).bind fun _ t => t.dmaDone u f).All (Transactions s) := fun pa d be u f =>
    (s.dmaWrite_frame pa d be).chain fun _ t => t.dmaDone_frame u f
  have hr : ∀ (pa : Word) (be : BitVec 4) (u : DmaUnit) (f : Word → State → Dev → Dev),
      ((s.dmaRead pa be).bind fun w t => t.dmaDone u (f w t)).All (Transactions s) := fun pa be u f =>
    (s.dmaRead_frame pa be).chain fun w t => t.dmaDone_frame u (f w t)
  unfold State.dmaServe
  split
  · unfold State.dmaMbus; dsimp only; split
    · exact hw _ _ _ _ _
    · exact hr _ _ _ fun w t d => (d.mbusSend w false (bitOf (t.free tagOverrun) 0)).mbusAck
  · unfold State.dmaVideo
    exact (s.dmaBurst_frame _).chain fun ws t => t.dmaDone_frame _ _
  · unfold State.dmaSound; dsimp only; split
    · exact hw _ _ _ _ _
    · exact hr _ _ _ fun w _ d => Dev.sndAck { d with sib := { d.sib with sndTxHold := w } } false
  · unfold State.dmaTel; dsimp only; split
    · exact hw _ _ _ _ _
    · exact hr _ _ _ fun w _ d => Dev.telAck { d with sib := { d.sib with telTxHold := w } } false
  · unfold State.dmaChi; dsimp only; split
    · exact hw _ _ _ _ _
    · exact hr _ _ _ fun w _ d => d.chiAck false (·.txGiven (chiMemory s.board.bigEndian w))
  · unfold State.dmaUart; dsimp only; split
    · exact hw _ _ _ _ _
    · exact (s.dmaRead_frame _ _).chain fun w t => t.dmaDone_frame _ _

/-- A DMA transaction, begun or gone on with. -/
theorem State.dmaRun_frame (s : State) (j : DmaJob) : (s.dmaRun j).All (Transactions s) := by
  unfold State.dmaRun
  have h : Transactions s { s with dev := { s.dev with dma := some j } } := Transactions.of_dev rfl
  exact ((State.dmaServe_frame _ j).mono fun _ ht => h.trans ht).bind (fun _ t ht => ht.trans (Transactions.of_dev rfl)) fun _ ht => ht

/-- A DMA grant, whatever it serves. -/
theorem State.dmaGrant_frame (s : State) : s.dmaGrant.All (Transactions s) := by
  unfold State.dmaGrant
  split
  · exact s.dmaRun_frame _
  · split
    · exact Transactions.refl s
    · split
      · exact s.dmaRun_frame _
      · exact Transactions.refl s

end Sys2Proof.Machine
end

