-- ==== Sys2Proof/Laws/Decode.lean ====
section
/-!
SUPPORT. The fields of the packed formats, and a word put together from its fields.
-/

namespace Sys2Proof

@[simp] theorem opOf_packR (op : BitVec 6) (rs rt rd : Reg) (shamt : BitVec 5) (funct : BitVec 6) : opOf (packR op rs rt rd shamt funct) = op := by
  apply BitVec.eq_of_getLsbD_eq
  intro i hi
  simp only [opOf, packR, BitVec.getLsbD_extractLsb', BitVec.getLsbD_append]
  interval_cases i <;> simp

@[simp] theorem rsOf_packR (op : BitVec 6) (rs rt rd : Reg) (shamt : BitVec 5) (funct : BitVec 6) : rsOf (packR op rs rt rd shamt funct) = rs := by
  apply BitVec.eq_of_getLsbD_eq
  intro i hi
  simp only [rsOf, packR, BitVec.getLsbD_extractLsb', BitVec.getLsbD_append]
  interval_cases i <;> simp

@[simp] theorem rtOf_packR (op : BitVec 6) (rs rt rd : Reg) (shamt : BitVec 5) (funct : BitVec 6) : rtOf (packR op rs rt rd shamt funct) = rt := by
  apply BitVec.eq_of_getLsbD_eq
  intro i hi
  simp only [rtOf, packR, BitVec.getLsbD_extractLsb', BitVec.getLsbD_append]
  interval_cases i <;> simp

@[simp] theorem rdOf_packR (op : BitVec 6) (rs rt rd : Reg) (shamt : BitVec 5) (funct : BitVec 6) : rdOf (packR op rs rt rd shamt funct) = rd := by
  apply BitVec.eq_of_getLsbD_eq
  intro i hi
  simp only [rdOf, packR, BitVec.getLsbD_extractLsb', BitVec.getLsbD_append]
  interval_cases i <;> simp

@[simp] theorem shamtOf_packR (op : BitVec 6) (rs rt rd : Reg) (shamt : BitVec 5) (funct : BitVec 6) : shamtOf (packR op rs rt rd shamt funct) = shamt := by
  apply BitVec.eq_of_getLsbD_eq
  intro i hi
  simp only [shamtOf, packR, BitVec.getLsbD_extractLsb', BitVec.getLsbD_append]
  interval_cases i <;> simp

@[simp] theorem functOf_packR (op : BitVec 6) (rs rt rd : Reg) (shamt : BitVec 5) (funct : BitVec 6) : functOf (packR op rs rt rd shamt funct) = funct := by
  apply BitVec.eq_of_getLsbD_eq
  intro i hi
  simp only [functOf, packR, BitVec.getLsbD_extractLsb', BitVec.getLsbD_append]
  interval_cases i <;> simp

@[simp] theorem codeOf_packR (op : BitVec 6) (rs rt rd : Reg) (shamt : BitVec 5) (funct : BitVec 6) : codeOf (packR op rs rt rd shamt funct) = rs ++ rt ++ rd ++ shamt := by
  apply BitVec.eq_of_getLsbD_eq
  intro i hi
  simp only [codeOf, packR, BitVec.getLsbD_extractLsb', BitVec.getLsbD_append]
  interval_cases i <;> simp

@[simp] theorem opOf_packI (op : BitVec 6) (rs rt : Reg) (imm : BitVec 16) : opOf (packI op rs rt imm) = op := by
  apply BitVec.eq_of_getLsbD_eq
  intro i hi
  simp only [opOf, packI, BitVec.getLsbD_extractLsb', BitVec.getLsbD_append]
  interval_cases i <;> simp

@[simp] theorem rsOf_packI (op : BitVec 6) (rs rt : Reg) (imm : BitVec 16) : rsOf (packI op rs rt imm) = rs := by
  apply BitVec.eq_of_getLsbD_eq
  intro i hi
  simp only [rsOf, packI, BitVec.getLsbD_extractLsb', BitVec.getLsbD_append]
  interval_cases i <;> simp

@[simp] theorem rtOf_packI (op : BitVec 6) (rs rt : Reg) (imm : BitVec 16) : rtOf (packI op rs rt imm) = rt := by
  apply BitVec.eq_of_getLsbD_eq
  intro i hi
  simp only [rtOf, packI, BitVec.getLsbD_extractLsb', BitVec.getLsbD_append]
  interval_cases i <;> simp

@[simp] theorem immOf_packI (op : BitVec 6) (rs rt : Reg) (imm : BitVec 16) : immOf (packI op rs rt imm) = imm := by
  apply BitVec.eq_of_getLsbD_eq
  intro i hi
  simp only [immOf, packI, BitVec.getLsbD_extractLsb', BitVec.getLsbD_append]
  interval_cases i <;> simp

@[simp] theorem opOf_packJ (op : BitVec 6) (target : BitVec 26) : opOf (packJ op target) = op := by
  apply BitVec.eq_of_getLsbD_eq
  intro i hi
  simp only [opOf, packJ, BitVec.getLsbD_extractLsb', BitVec.getLsbD_append]
  interval_cases i <;> simp

@[simp] theorem targetOf_packJ (op : BitVec 6) (target : BitVec 26) : targetOf (packJ op target) = target := by
  apply BitVec.eq_of_getLsbD_eq
  intro i hi
  simp only [targetOf, packJ, BitVec.getLsbD_extractLsb', BitVec.getLsbD_append]
  interval_cases i <;> simp

@[simp] theorem opOf_packCode (op : BitVec 6) (code : BitVec 20) (funct : BitVec 6) : opOf (packCode op code funct) = op := by
  apply BitVec.eq_of_getLsbD_eq
  intro i hi
  simp only [opOf, packCode, BitVec.getLsbD_extractLsb', BitVec.getLsbD_append]
  interval_cases i <;> simp

@[simp] theorem codeOf_packCode (op : BitVec 6) (code : BitVec 20) (funct : BitVec 6) : codeOf (packCode op code funct) = code := by
  apply BitVec.eq_of_getLsbD_eq
  intro i hi
  simp only [codeOf, packCode, BitVec.getLsbD_extractLsb', BitVec.getLsbD_append]
  interval_cases i <;> simp

@[simp] theorem functOf_packCode (op : BitVec 6) (code : BitVec 20) (funct : BitVec 6) : functOf (packCode op code funct) = funct := by
  apply BitVec.eq_of_getLsbD_eq
  intro i hi
  simp only [functOf, packCode, BitVec.getLsbD_extractLsb', BitVec.getLsbD_append]
  interval_cases i <;> simp

@[simp] theorem opOf_packCofun (op : BitVec 6) (cofun : BitVec 25) : opOf (packCofun op cofun) = op := by
  apply BitVec.eq_of_getLsbD_eq
  intro i hi
  simp only [opOf, packCofun, BitVec.getLsbD_extractLsb', BitVec.getLsbD_append]
  interval_cases i <;> simp

@[simp] theorem cofunOf_packCofun (op : BitVec 6) (cofun : BitVec 25) : cofunOf (packCofun op cofun) = cofun := by
  apply BitVec.eq_of_getLsbD_eq
  intro i hi
  simp only [cofunOf, packCofun, BitVec.getLsbD_extractLsb', BitVec.getLsbD_append]
  interval_cases i <;> simp

@[simp] theorem rsOf_packCofun (op : BitVec 6) (cofun : BitVec 25) : rsOf (packCofun op cofun) = 1#1 ++ cofun.extractLsb' 21 4 := by
  apply BitVec.eq_of_getLsbD_eq
  intro i hi
  simp only [rsOf, packCofun, BitVec.getLsbD_extractLsb', BitVec.getLsbD_append]
  interval_cases i <;> simp

/-- A word from the fields of `packR`. -/
theorem packR_fields (w : Word) : packR (opOf w) (rsOf w) (rtOf w) (rdOf w) (shamtOf w) (functOf w) = w := by
  apply BitVec.eq_of_getLsbD_eq
  intro i hi
  simp only [packR, opOf, rsOf, rtOf, rdOf, shamtOf, functOf, BitVec.getLsbD_extractLsb', BitVec.getLsbD_append]
  interval_cases i <;> simp

/-- A word from the fields of `packI`. -/
theorem packI_fields (w : Word) : packI (opOf w) (rsOf w) (rtOf w) (immOf w) = w := by
  apply BitVec.eq_of_getLsbD_eq
  intro i hi
  simp only [packI, opOf, rsOf, rtOf, immOf, BitVec.getLsbD_extractLsb', BitVec.getLsbD_append]
  interval_cases i <;> simp

/-- A word from the fields of `packJ`. -/
theorem packJ_fields (w : Word) : packJ (opOf w) (targetOf w) = w := by
  apply BitVec.eq_of_getLsbD_eq
  intro i hi
  simp only [packJ, opOf, targetOf, BitVec.getLsbD_extractLsb', BitVec.getLsbD_append]
  interval_cases i <;> simp

/-- A word from the fields of `packCode`. -/
theorem packCode_fields (w : Word) : packCode (opOf w) (codeOf w) (functOf w) = w := by
  apply BitVec.eq_of_getLsbD_eq
  intro i hi
  simp only [packCode, opOf, codeOf, functOf, BitVec.getLsbD_extractLsb', BitVec.getLsbD_append]
  interval_cases i <;> simp

/-- A coprocessor function word from its fields. -/
theorem packCofun_fields (w : Word) (h : (rsOf w).getLsbD 4 = true) : packCofun (opOf w) (cofunOf w) = w := by
  have h25 : w.getLsbD 25 = true := by simpa [rsOf] using h
  apply BitVec.eq_of_getLsbD_eq
  intro i hi
  simp only [packCofun, opOf, cofunOf, BitVec.getLsbD_extractLsb', BitVec.getLsbD_append]
  interval_cases i <;> simp [h25]

/-- The code field is the four fields it spans. -/
theorem codeOf_fields (w : Word) : codeOf w = rsOf w ++ rtOf w ++ rdOf w ++ shamtOf w := by
  apply BitVec.eq_of_getLsbD_eq
  intro i hi
  simp only [codeOf, rsOf, rtOf, rdOf, shamtOf, BitVec.getLsbD_extractLsb', BitVec.getLsbD_append]
  interval_cases i <;> simp

end Sys2Proof
end

