-- ==== Sys2Proof/Laws/PerInstr.lean ====
section
/-!
SUPPORT. Laws that are stated for every instruction, one lemma per constructor.
-/

namespace Sys2Proof.Laws.MajorOp

/-- The major opcode of an instruction (R285). -/
def majorOf : Instr → BitVec 6
  | .add _ _ _ | .addu _ _ _ | .sub _ _ _ | .subu _ _ _ | .and _ _ _ | .or _ _ _ | .xor _ _ _ | .nor _ _ _ | .slt _ _ _ | .sltu _ _ _ | .sll _ _ _ | .srl _ _ _ | .sra _ _ _ | .sllv _ _ _ | .srlv _ _ _ | .srav _ _ _ | .mult _ _ _ | .multu _ _ _ | .div _ _ | .divu _ _ | .mfhi _ | .mthi _ | .mflo _ | .mtlo _ | .jr _ | .jalr _ _ | .syscall _ | .brk _ | .sync | .sdbbp _ => 0x00
  | .addi _ _ _ => 0x08
  | .addiu _ _ _ => 0x09
  | .slti _ _ _ => 0x0A
  | .sltiu _ _ _ => 0x0B
  | .andi _ _ _ => 0x0C
  | .ori _ _ _ => 0x0D
  | .xori _ _ _ => 0x0E
  | .lui _ _ => 0x0F
  | .madd _ _ _ | .maddu _ _ _ => 0x1C
  | .j _ => 0x02
  | .jal _ => 0x03
  | .beq _ _ _ => 0x04
  | .bne _ _ _ => 0x05
  | .blez _ _ => 0x06
  | .bgtz _ _ => 0x07
  | .bltz _ _ | .bgez _ _ | .bltzl _ _ | .bgezl _ _ | .bltzal _ _ | .bgezal _ _ | .bltzall _ _ | .bgezall _ _ => 0x01
  | .beql _ _ _ => 0x14
  | .bnel _ _ _ => 0x15
  | .blezl _ _ => 0x16
  | .bgtzl _ _ => 0x17
  | .lb _ _ _ => 0x20
  | .lh _ _ _ => 0x21
  | .lwl _ _ _ => 0x22
  | .lw _ _ _ => 0x23
  | .lbu _ _ _ => 0x24
  | .lhu _ _ _ => 0x25
  | .lwr _ _ _ => 0x26
  | .sb _ _ _ => 0x28
  | .sh _ _ _ => 0x29
  | .swl _ _ _ => 0x2A
  | .sw _ _ _ => 0x2B
  | .swr _ _ _ => 0x2E
  | .mfc0 _ _ | .mtc0 _ _ | .tlbr | .tlbwi | .tlbwr | .tlbp | .rfe | .deret => 0x10
  | .mfc1 _ _ | .cfc1 _ _ | .mtc1 _ _ | .ctc1 _ _ | .bc1f _ | .bc1t _ | .cop1 _ | .bc1fl _ | .bc1tl _ => 0x11
  | .mfc2 _ _ | .cfc2 _ _ | .mtc2 _ _ | .ctc2 _ _ | .bc2f _ | .bc2t _ | .cop2 _ | .bc2fl _ | .bc2tl _ => 0x12
  | .mfc3 _ _ | .cfc3 _ _ | .mtc3 _ _ | .ctc3 _ _ | .bc3f _ | .bc3t _ | .cop3 _ | .bc3fl _ | .bc3tl _ => 0x13
  | .cache _ _ _ => 0x2F
  | .lwc0 _ _ _ => 0x30
  | .swc0 _ _ _ => 0x38
  | .lwc1 _ _ _ => 0x31
  | .swc1 _ _ _ => 0x39
  | .lwc2 _ _ _ => 0x32
  | .swc2 _ _ _ => 0x3A
  | .lwc3 _ _ _ => 0x33
  | .swc3 _ _ _ => 0x3B

/-- The word of an instruction has the major opcode of the instruction (R285). -/
def Statement (i : Instr) : Prop := opOf (encode i) = majorOf i

theorem add (rs : Reg) (rt : Reg) (rd : Reg) : Statement (.add rs rt rd) := opOf_packR 0x00 rs rt rd 0x00 0x20
theorem addu (rs : Reg) (rt : Reg) (rd : Reg) : Statement (.addu rs rt rd) := opOf_packR 0x00 rs rt rd 0x00 0x21
theorem sub (rs : Reg) (rt : Reg) (rd : Reg) : Statement (.sub rs rt rd) := opOf_packR 0x00 rs rt rd 0x00 0x22
theorem subu (rs : Reg) (rt : Reg) (rd : Reg) : Statement (.subu rs rt rd) := opOf_packR 0x00 rs rt rd 0x00 0x23
theorem and (rs : Reg) (rt : Reg) (rd : Reg) : Statement (.and rs rt rd) := opOf_packR 0x00 rs rt rd 0x00 0x24
theorem or (rs : Reg) (rt : Reg) (rd : Reg) : Statement (.or rs rt rd) := opOf_packR 0x00 rs rt rd 0x00 0x25
theorem xor (rs : Reg) (rt : Reg) (rd : Reg) : Statement (.xor rs rt rd) := opOf_packR 0x00 rs rt rd 0x00 0x26
theorem nor (rs : Reg) (rt : Reg) (rd : Reg) : Statement (.nor rs rt rd) := opOf_packR 0x00 rs rt rd 0x00 0x27
theorem slt (rs : Reg) (rt : Reg) (rd : Reg) : Statement (.slt rs rt rd) := opOf_packR 0x00 rs rt rd 0x00 0x2A
theorem sltu (rs : Reg) (rt : Reg) (rd : Reg) : Statement (.sltu rs rt rd) := opOf_packR 0x00 rs rt rd 0x00 0x2B
theorem addi (rs : Reg) (rt : Reg) (imm : BitVec 16) : Statement (.addi rs rt imm) := opOf_packI 0x08 rs rt imm
theorem addiu (rs : Reg) (rt : Reg) (imm : BitVec 16) : Statement (.addiu rs rt imm) := opOf_packI 0x09 rs rt imm
theorem slti (rs : Reg) (rt : Reg) (imm : BitVec 16) : Statement (.slti rs rt imm) := opOf_packI 0x0A rs rt imm
theorem sltiu (rs : Reg) (rt : Reg) (imm : BitVec 16) : Statement (.sltiu rs rt imm) := opOf_packI 0x0B rs rt imm
theorem andi (rs : Reg) (rt : Reg) (imm : BitVec 16) : Statement (.andi rs rt imm) := opOf_packI 0x0C rs rt imm
theorem ori (rs : Reg) (rt : Reg) (imm : BitVec 16) : Statement (.ori rs rt imm) := opOf_packI 0x0D rs rt imm
theorem xori (rs : Reg) (rt : Reg) (imm : BitVec 16) : Statement (.xori rs rt imm) := opOf_packI 0x0E rs rt imm
theorem lui (rt : Reg) (imm : BitVec 16) : Statement (.lui rt imm) := opOf_packI 0x0F 0x00 rt imm
theorem sll (rt : Reg) (rd : Reg) (shamt : BitVec 5) : Statement (.sll rt rd shamt) := opOf_packR 0x00 0x00 rt rd shamt 0x00
theorem srl (rt : Reg) (rd : Reg) (shamt : BitVec 5) : Statement (.srl rt rd shamt) := opOf_packR 0x00 0x00 rt rd shamt 0x02
theorem sra (rt : Reg) (rd : Reg) (shamt : BitVec 5) : Statement (.sra rt rd shamt) := opOf_packR 0x00 0x00 rt rd shamt 0x03
theorem sllv (rs : Reg) (rt : Reg) (rd : Reg) : Statement (.sllv rs rt rd) := opOf_packR 0x00 rs rt rd 0x00 0x04
theorem srlv (rs : Reg) (rt : Reg) (rd : Reg) : Statement (.srlv rs rt rd) := opOf_packR 0x00 rs rt rd 0x00 0x06
theorem srav (rs : Reg) (rt : Reg) (rd : Reg) : Statement (.srav rs rt rd) := opOf_packR 0x00 rs rt rd 0x00 0x07
theorem mult (rs : Reg) (rt : Reg) (rd : Reg) : Statement (.mult rs rt rd) := opOf_packR 0x00 rs rt rd 0x00 0x18
theorem multu (rs : Reg) (rt : Reg) (rd : Reg) : Statement (.multu rs rt rd) := opOf_packR 0x00 rs rt rd 0x00 0x19
theorem div (rs : Reg) (rt : Reg) : Statement (.div rs rt) := opOf_packR 0x00 rs rt 0x00 0x00 0x1A
theorem divu (rs : Reg) (rt : Reg) : Statement (.divu rs rt) := opOf_packR 0x00 rs rt 0x00 0x00 0x1B
theorem mfhi (rd : Reg) : Statement (.mfhi rd) := opOf_packR 0x00 0x00 0x00 rd 0x00 0x10
theorem mthi (rs : Reg) : Statement (.mthi rs) := opOf_packR 0x00 rs 0x00 0x00 0x00 0x11
theorem mflo (rd : Reg) : Statement (.mflo rd) := opOf_packR 0x00 0x00 0x00 rd 0x00 0x12
theorem mtlo (rs : Reg) : Statement (.mtlo rs) := opOf_packR 0x00 rs 0x00 0x00 0x00 0x13
theorem madd (rs : Reg) (rt : Reg) (rd : Reg) : Statement (.madd rs rt rd) := opOf_packR 0x1C rs rt rd 0x00 0x00
theorem maddu (rs : Reg) (rt : Reg) (rd : Reg) : Statement (.maddu rs rt rd) := opOf_packR 0x1C rs rt rd 0x00 0x01
theorem j (target : BitVec 26) : Statement (.j target) := opOf_packJ 0x02 target
theorem jal (target : BitVec 26) : Statement (.jal target) := opOf_packJ 0x03 target
theorem jr (rs : Reg) : Statement (.jr rs) := opOf_packR 0x00 rs 0x00 0x00 0x00 0x08
theorem jalr (rs : Reg) (rd : Reg) : Statement (.jalr rs rd) := opOf_packR 0x00 rs 0x00 rd 0x00 0x09
theorem beq (rs : Reg) (rt : Reg) (imm : BitVec 16) : Statement (.beq rs rt imm) := opOf_packI 0x04 rs rt imm
theorem bne (rs : Reg) (rt : Reg) (imm : BitVec 16) : Statement (.bne rs rt imm) := opOf_packI 0x05 rs rt imm
theorem blez (rs : Reg) (imm : BitVec 16) : Statement (.blez rs imm) := opOf_packI 0x06 rs 0x00 imm
theorem bgtz (rs : Reg) (imm : BitVec 16) : Statement (.bgtz rs imm) := opOf_packI 0x07 rs 0x00 imm
theorem bltz (rs : Reg) (imm : BitVec 16) : Statement (.bltz rs imm) := opOf_packI 0x01 rs 0x00 imm
theorem bgez (rs : Reg) (imm : BitVec 16) : Statement (.bgez rs imm) := opOf_packI 0x01 rs 0x01 imm
theorem bltzl (rs : Reg) (imm : BitVec 16) : Statement (.bltzl rs imm) := opOf_packI 0x01 rs 0x02 imm
theorem bgezl (rs : Reg) (imm : BitVec 16) : Statement (.bgezl rs imm) := opOf_packI 0x01 rs 0x03 imm
theorem bltzal (rs : Reg) (imm : BitVec 16) : Statement (.bltzal rs imm) := opOf_packI 0x01 rs 0x10 imm
theorem bgezal (rs : Reg) (imm : BitVec 16) : Statement (.bgezal rs imm) := opOf_packI 0x01 rs 0x11 imm
theorem bltzall (rs : Reg) (imm : BitVec 16) : Statement (.bltzall rs imm) := opOf_packI 0x01 rs 0x12 imm
theorem bgezall (rs : Reg) (imm : BitVec 16) : Statement (.bgezall rs imm) := opOf_packI 0x01 rs 0x13 imm
theorem beql (rs : Reg) (rt : Reg) (imm : BitVec 16) : Statement (.beql rs rt imm) := opOf_packI 0x14 rs rt imm
theorem bnel (rs : Reg) (rt : Reg) (imm : BitVec 16) : Statement (.bnel rs rt imm) := opOf_packI 0x15 rs rt imm
theorem blezl (rs : Reg) (imm : BitVec 16) : Statement (.blezl rs imm) := opOf_packI 0x16 rs 0x00 imm
theorem bgtzl (rs : Reg) (imm : BitVec 16) : Statement (.bgtzl rs imm) := opOf_packI 0x17 rs 0x00 imm
theorem lb (rs : Reg) (rt : Reg) (imm : BitVec 16) : Statement (.lb rs rt imm) := opOf_packI 0x20 rs rt imm
theorem lh (rs : Reg) (rt : Reg) (imm : BitVec 16) : Statement (.lh rs rt imm) := opOf_packI 0x21 rs rt imm
theorem lwl (rs : Reg) (rt : Reg) (imm : BitVec 16) : Statement (.lwl rs rt imm) := opOf_packI 0x22 rs rt imm
theorem lw (rs : Reg) (rt : Reg) (imm : BitVec 16) : Statement (.lw rs rt imm) := opOf_packI 0x23 rs rt imm
theorem lbu (rs : Reg) (rt : Reg) (imm : BitVec 16) : Statement (.lbu rs rt imm) := opOf_packI 0x24 rs rt imm
theorem lhu (rs : Reg) (rt : Reg) (imm : BitVec 16) : Statement (.lhu rs rt imm) := opOf_packI 0x25 rs rt imm
theorem lwr (rs : Reg) (rt : Reg) (imm : BitVec 16) : Statement (.lwr rs rt imm) := opOf_packI 0x26 rs rt imm
theorem sb (rs : Reg) (rt : Reg) (imm : BitVec 16) : Statement (.sb rs rt imm) := opOf_packI 0x28 rs rt imm
theorem sh (rs : Reg) (rt : Reg) (imm : BitVec 16) : Statement (.sh rs rt imm) := opOf_packI 0x29 rs rt imm
theorem swl (rs : Reg) (rt : Reg) (imm : BitVec 16) : Statement (.swl rs rt imm) := opOf_packI 0x2A rs rt imm
theorem sw (rs : Reg) (rt : Reg) (imm : BitVec 16) : Statement (.sw rs rt imm) := opOf_packI 0x2B rs rt imm
theorem swr (rs : Reg) (rt : Reg) (imm : BitVec 16) : Statement (.swr rs rt imm) := opOf_packI 0x2E rs rt imm
theorem syscall (code : BitVec 20) : Statement (.syscall code) := opOf_packCode 0x00 code 0x0C
theorem brk (code : BitVec 20) : Statement (.brk code) := opOf_packCode 0x00 code 0x0D
theorem sync : Statement (.sync) := opOf_packR 0x00 0x00 0x00 0x00 0x00 0x0F
theorem mfc0 (rt : Reg) (rd : Reg) : Statement (.mfc0 rt rd) := opOf_packR 0x10 0x00 rt rd 0x00 0x00
theorem mtc0 (rt : Reg) (rd : Reg) : Statement (.mtc0 rt rd) := opOf_packR 0x10 0x04 rt rd 0x00 0x00
theorem tlbr : Statement (.tlbr) := opOf_packR 0x10 0x10 0x00 0x00 0x00 0x01
theorem tlbwi : Statement (.tlbwi) := opOf_packR 0x10 0x10 0x00 0x00 0x00 0x02
theorem tlbwr : Statement (.tlbwr) := opOf_packR 0x10 0x10 0x00 0x00 0x00 0x06
theorem tlbp : Statement (.tlbp) := opOf_packR 0x10 0x10 0x00 0x00 0x00 0x08
theorem rfe : Statement (.rfe) := opOf_packR 0x10 0x10 0x00 0x00 0x00 0x10
theorem mfc1 (rt : Reg) (rd : Reg) : Statement (.mfc1 rt rd) := opOf_packR 0x11 0x00 rt rd 0x00 0x00
theorem cfc1 (rt : Reg) (rd : Reg) : Statement (.cfc1 rt rd) := opOf_packR 0x11 0x02 rt rd 0x00 0x00
theorem mtc1 (rt : Reg) (rd : Reg) : Statement (.mtc1 rt rd) := opOf_packR 0x11 0x04 rt rd 0x00 0x00
theorem ctc1 (rt : Reg) (rd : Reg) : Statement (.ctc1 rt rd) := opOf_packR 0x11 0x06 rt rd 0x00 0x00
theorem bc1f (imm : BitVec 16) : Statement (.bc1f imm) := opOf_packI 0x11 0x08 0x00 imm
theorem bc1t (imm : BitVec 16) : Statement (.bc1t imm) := opOf_packI 0x11 0x08 0x01 imm
theorem cop1 (cofun : BitVec 25) : Statement (.cop1 cofun) := opOf_packCofun 0x11 cofun
theorem mfc2 (rt : Reg) (rd : Reg) : Statement (.mfc2 rt rd) := opOf_packR 0x12 0x00 rt rd 0x00 0x00
theorem cfc2 (rt : Reg) (rd : Reg) : Statement (.cfc2 rt rd) := opOf_packR 0x12 0x02 rt rd 0x00 0x00
theorem mtc2 (rt : Reg) (rd : Reg) : Statement (.mtc2 rt rd) := opOf_packR 0x12 0x04 rt rd 0x00 0x00
theorem ctc2 (rt : Reg) (rd : Reg) : Statement (.ctc2 rt rd) := opOf_packR 0x12 0x06 rt rd 0x00 0x00
theorem bc2f (imm : BitVec 16) : Statement (.bc2f imm) := opOf_packI 0x12 0x08 0x00 imm
theorem bc2t (imm : BitVec 16) : Statement (.bc2t imm) := opOf_packI 0x12 0x08 0x01 imm
theorem cop2 (cofun : BitVec 25) : Statement (.cop2 cofun) := opOf_packCofun 0x12 cofun
theorem mfc3 (rt : Reg) (rd : Reg) : Statement (.mfc3 rt rd) := opOf_packR 0x13 0x00 rt rd 0x00 0x00
theorem cfc3 (rt : Reg) (rd : Reg) : Statement (.cfc3 rt rd) := opOf_packR 0x13 0x02 rt rd 0x00 0x00
theorem mtc3 (rt : Reg) (rd : Reg) : Statement (.mtc3 rt rd) := opOf_packR 0x13 0x04 rt rd 0x00 0x00
theorem ctc3 (rt : Reg) (rd : Reg) : Statement (.ctc3 rt rd) := opOf_packR 0x13 0x06 rt rd 0x00 0x00
theorem bc3f (imm : BitVec 16) : Statement (.bc3f imm) := opOf_packI 0x13 0x08 0x00 imm
theorem bc3t (imm : BitVec 16) : Statement (.bc3t imm) := opOf_packI 0x13 0x08 0x01 imm
theorem cop3 (cofun : BitVec 25) : Statement (.cop3 cofun) := opOf_packCofun 0x13 cofun
theorem cache (rs : Reg) (rt : Reg) (imm : BitVec 16) : Statement (.cache rs rt imm) := opOf_packI 0x2F rs rt imm
theorem sdbbp (code : BitVec 20) : Statement (.sdbbp code) := opOf_packCode 0x00 code 0x0E
theorem deret : Statement (.deret) := opOf_packR 0x10 0x10 0x00 0x00 0x00 0x1F
theorem bc1fl (imm : BitVec 16) : Statement (.bc1fl imm) := opOf_packI 0x11 0x08 0x02 imm
theorem bc1tl (imm : BitVec 16) : Statement (.bc1tl imm) := opOf_packI 0x11 0x08 0x03 imm
theorem bc2fl (imm : BitVec 16) : Statement (.bc2fl imm) := opOf_packI 0x12 0x08 0x02 imm
theorem bc2tl (imm : BitVec 16) : Statement (.bc2tl imm) := opOf_packI 0x12 0x08 0x03 imm
theorem bc3fl (imm : BitVec 16) : Statement (.bc3fl imm) := opOf_packI 0x13 0x08 0x02 imm
theorem bc3tl (imm : BitVec 16) : Statement (.bc3tl imm) := opOf_packI 0x13 0x08 0x03 imm
theorem lwc0 (rs : Reg) (rt : Reg) (imm : BitVec 16) : Statement (.lwc0 rs rt imm) := opOf_packI 0x30 rs rt imm
theorem swc0 (rs : Reg) (rt : Reg) (imm : BitVec 16) : Statement (.swc0 rs rt imm) := opOf_packI 0x38 rs rt imm
theorem lwc1 (rs : Reg) (rt : Reg) (imm : BitVec 16) : Statement (.lwc1 rs rt imm) := opOf_packI 0x31 rs rt imm
theorem swc1 (rs : Reg) (rt : Reg) (imm : BitVec 16) : Statement (.swc1 rs rt imm) := opOf_packI 0x39 rs rt imm
theorem lwc2 (rs : Reg) (rt : Reg) (imm : BitVec 16) : Statement (.lwc2 rs rt imm) := opOf_packI 0x32 rs rt imm
theorem swc2 (rs : Reg) (rt : Reg) (imm : BitVec 16) : Statement (.swc2 rs rt imm) := opOf_packI 0x3A rs rt imm
theorem lwc3 (rs : Reg) (rt : Reg) (imm : BitVec 16) : Statement (.lwc3 rs rt imm) := opOf_packI 0x33 rs rt imm
theorem swc3 (rs : Reg) (rt : Reg) (imm : BitVec 16) : Statement (.swc3 rs rt imm) := opOf_packI 0x3B rs rt imm

end Sys2Proof.Laws.MajorOp
end

