-- ==== Sys2Proof/Tests/Slice0.lean ====
section
/-!
SUPPORT. Tests, each expected value taken from the spec (spec/95_test_vectors.md unless the comment names another file): words written out
field by field against the decoder, single steps on small states, the checks of the model that refuse ill-formed terms; and for each
statement with hypotheses a concrete state that meets them together.
-/

namespace Sys2Proof.Tests

open Sys2Proof Sys2Proof.Machine

set_option maxRecDepth 8000

/-! ## Helpers -/

/-- Bank 0 of the default board, set up and initialised. -/
def ramBiu : Biu := { Biu.reset true with mc0 := 0x00012021, mc4 := 0x00004000, refreshes0 := 8 }

/-- A machine with working RAM, about to fetch at `pc`. -/
def bench (big : Bool) (pc : Word) : State :=
  { State.reset with pc := pc, npc := pc + 4, board := { Board.default with bigEndian := big },
                     dev := { Dev.reset true with biu := ramBiu } }

/-- One step with the word `w` as the instruction fetched. -/
def run (s : State) (w : Nat) : Host.Outcome State Fault Refusal := step (s.withFetchWord 32 w)

/-- What a next state shows. -/
def got {α : Type} (o : Host.Outcome State Fault Refusal) (f : State → α) : Option α :=
  match o with
  | .next t => some (f t)
  | _ => none

/-- Why a step was refused. -/
def why (o : Host.Outcome State Fault Refusal) : Option Refusal :=
  match o with
  | .refused r => some r
  | _ => none

/-- The bench with x[1] and x[2] set. -/
def regs (a b : Word) : State := ((bench false 0xA0001000).setReg 1 a).setReg 2 b

/-- The bench for a branch at 0x80001000 with x[1] and x[2] set. -/
def branchRegs (a b : Word) : State := ((bench false 0x80001000).setReg 1 a).setReg 2 b

/-- The bench with HI, LO, x[1] and x[2] set. -/
def accRegs (hi lo a b : Word) : State := { regs a b with hi := hi, lo := lo }

/-- The bench with the word `w` at physical 0x2000, x[4] = 0xA0002000 and x[2] set. -/
def memory (big : Bool) (w x2 : Word) : State :=
  let s := ((bench big 0xA0001000).setReg 4 0xA0002000).setReg 2 x2
  { s with mem := Mem.writeLanes [] big 0x2000 w 0xF }

/-- The word at physical 0x2000 after a step and the draining of the write buffer. -/
def stored (o : Host.Outcome State Fault Refusal) : Option Word :=
  match o with
  | .next t =>
    match t.drainAll with
    | .ok _ u => some (u.mem.readWord u.board.bigEndian 0x2000)
    | _ => none
  | _ => none

/-- The bench with Status, Index, EntryHi and EntryLo set. -/
def cp0Bench (status index hi lo : Word) : State :=
  let s := bench false 0xA0001000
  { s with cp0 := { s.cp0 with status := status, index := index, entryHi := hi, entryLo := lo } }

/-- An entry that maps one page. -/
def pageEntry (g d v : Bool) : TlbEntry := { vpn := 0x00400, pid := 3, pfn := 0x00123, n := false, d := d, v := v, g := g }

/-- A state with TLB entry 9 set. -/
def withEntry (s : State) (e : TlbEntry) : State := { s with tlb := s.tlb.set 9 e }

/-! ## Ill-formed terms -/

/-- R405, R412, R413, R1201, R1202, R321, R326. -/
theorem test_ill_formed :
    Instr.wellFormed (.jalr 5 5) = false ∧ Instr.wellFormed (.bltzal 31 0) = false ∧ Instr.wellFormed (.bgezal 31 0) = false ∧
    Instr.wellFormed (.bltzall 31 0) = false ∧ Instr.wellFormed (.bgezall 31 0) = false ∧ Instr.wellFormed (.mfc0 2 6) = false ∧
    Instr.wellFormed (.mtc0 2 3) = false ∧ Instr.wellFormed (.jalr 1 5) = true ∧ Instr.wellFormed (.bltzal 30 0) = true ∧
    Instr.wellFormed (.mfc0 2 15) = true := by decide

/-! ## Decoding: one word for every row of the opcode table, its fields written out (spec/30_encoding.md R282 to R289, R295) -/

theorem test_decode_alu_1 :
    decode 0b000000_00001_00010_00011_00000_100000 = .instr (.add 1 2 3) ∧
    decode 0b000000_00001_00010_00011_00000_100001 = .instr (.addu 1 2 3) ∧
    decode 0b000000_00001_00010_00011_00000_100010 = .instr (.sub 1 2 3) ∧
    decode 0b000000_00001_00010_00011_00000_100011 = .instr (.subu 1 2 3) ∧
    decode 0b000000_00001_00010_00011_00000_100100 = .instr (.and 1 2 3) ∧
    decode 0b000000_00001_00010_00011_00000_100101 = .instr (.or 1 2 3) ∧
    decode 0b000000_00001_00010_00011_00000_100110 = .instr (.xor 1 2 3) ∧
    decode 0b000000_00001_00010_00011_00000_100111 = .instr (.nor 1 2 3) ∧
    decode 0b000000_00001_00010_00011_00000_101010 = .instr (.slt 1 2 3) ∧
    decode 0b000000_00001_00010_00011_00000_101011 = .instr (.sltu 1 2 3) ∧
    decode 0b001000_00001_00010_1000000000000101 = .instr (.addi 1 2 0x8005) ∧
    decode 0b001001_00001_00010_1000000000000101 = .instr (.addiu 1 2 0x8005) := by decide

theorem test_decode_alu_2 :
    decode 0b001010_00001_00010_1000000000000101 = .instr (.slti 1 2 0x8005) ∧
    decode 0b001011_00001_00010_1000000000000101 = .instr (.sltiu 1 2 0x8005) ∧
    decode 0b001100_00001_00010_1000000000000101 = .instr (.andi 1 2 0x8005) ∧
    decode 0b001101_00001_00010_1000000000000101 = .instr (.ori 1 2 0x8005) ∧
    decode 0b001110_00001_00010_1000000000000101 = .instr (.xori 1 2 0x8005) ∧
    decode 0b001111_00000_00010_1000000000000101 = .instr (.lui 2 0x8005) := by decide

theorem test_decode_shift :
    decode 0b000000_00000_00010_00011_00100_000000 = .instr (.sll 2 3 4) ∧
    decode 0b000000_00000_00010_00011_00100_000010 = .instr (.srl 2 3 4) ∧
    decode 0b000000_00000_00010_00011_00100_000011 = .instr (.sra 2 3 4) ∧
    decode 0b000000_00001_00010_00011_00000_000100 = .instr (.sllv 1 2 3) ∧
    decode 0b000000_00001_00010_00011_00000_000110 = .instr (.srlv 1 2 3) ∧
    decode 0b000000_00001_00010_00011_00000_000111 = .instr (.srav 1 2 3) := by decide

theorem test_decode_muldiv :
    decode 0b000000_00001_00010_00011_00000_011000 = .instr (.mult 1 2 3) ∧
    decode 0b000000_00001_00010_00011_00000_011001 = .instr (.multu 1 2 3) ∧
    decode 0b000000_00001_00010_00000_00000_011010 = .instr (.div 1 2) ∧
    decode 0b000000_00001_00010_00000_00000_011011 = .instr (.divu 1 2) ∧
    decode 0b000000_00000_00000_00011_00000_010000 = .instr (.mfhi 3) ∧
    decode 0b000000_00001_00000_00000_00000_010001 = .instr (.mthi 1) ∧
    decode 0b000000_00000_00000_00011_00000_010010 = .instr (.mflo 3) ∧
    decode 0b000000_00001_00000_00000_00000_010011 = .instr (.mtlo 1) ∧
    decode 0b011100_00001_00010_00011_00000_000000 = .instr (.madd 1 2 3) ∧
    decode 0b011100_00001_00010_00011_00000_000001 = .instr (.maddu 1 2 3) := by decide

theorem test_decode_branch_1 :
    decode 0b000010_10001101000101011001111000 = .instr (.j 0x2345678) ∧
    decode 0b000011_10001101000101011001111000 = .instr (.jal 0x2345678) ∧
    decode 0b000000_00001_00000_00000_00000_001000 = .instr (.jr 1) ∧
    decode 0b000000_00001_00000_00011_00000_001001 = .instr (.jalr 1 3) ∧
    decode 0b000100_00001_00010_1000000000000101 = .instr (.beq 1 2 0x8005) ∧
    decode 0b000101_00001_00010_1000000000000101 = .instr (.bne 1 2 0x8005) ∧
    decode 0b000110_00001_00000_1000000000000101 = .instr (.blez 1 0x8005) ∧
    decode 0b000111_00001_00000_1000000000000101 = .instr (.bgtz 1 0x8005) ∧
    decode 0b000001_00001_00000_1000000000000101 = .instr (.bltz 1 0x8005) ∧
    decode 0b000001_00001_00001_1000000000000101 = .instr (.bgez 1 0x8005) ∧
    decode 0b000001_00001_00010_1000000000000101 = .instr (.bltzl 1 0x8005) ∧
    decode 0b000001_00001_00011_1000000000000101 = .instr (.bgezl 1 0x8005) := by decide

theorem test_decode_branch_2 :
    decode 0b000001_00001_10000_1000000000000101 = .instr (.bltzal 1 0x8005) ∧
    decode 0b000001_00001_10001_1000000000000101 = .instr (.bgezal 1 0x8005) ∧
    decode 0b000001_00001_10010_1000000000000101 = .instr (.bltzall 1 0x8005) ∧
    decode 0b000001_00001_10011_1000000000000101 = .instr (.bgezall 1 0x8005) ∧
    decode 0b010100_00001_00010_1000000000000101 = .instr (.beql 1 2 0x8005) ∧
    decode 0b010101_00001_00010_1000000000000101 = .instr (.bnel 1 2 0x8005) ∧
    decode 0b010110_00001_00000_1000000000000101 = .instr (.blezl 1 0x8005) ∧
    decode 0b010111_00001_00000_1000000000000101 = .instr (.bgtzl 1 0x8005) := by decide

theorem test_decode_memory :
    decode 0b100000_00001_00010_1000000000000101 = .instr (.lb 1 2 0x8005) ∧
    decode 0b100001_00001_00010_1000000000000101 = .instr (.lh 1 2 0x8005) ∧
    decode 0b100010_00001_00010_1000000000000101 = .instr (.lwl 1 2 0x8005) ∧
    decode 0b100011_00001_00010_1000000000000101 = .instr (.lw 1 2 0x8005) ∧
    decode 0b100100_00001_00010_1000000000000101 = .instr (.lbu 1 2 0x8005) ∧
    decode 0b100101_00001_00010_1000000000000101 = .instr (.lhu 1 2 0x8005) ∧
    decode 0b100110_00001_00010_1000000000000101 = .instr (.lwr 1 2 0x8005) ∧
    decode 0b101000_00001_00010_1000000000000101 = .instr (.sb 1 2 0x8005) ∧
    decode 0b101001_00001_00010_1000000000000101 = .instr (.sh 1 2 0x8005) ∧
    decode 0b101010_00001_00010_1000000000000101 = .instr (.swl 1 2 0x8005) ∧
    decode 0b101011_00001_00010_1000000000000101 = .instr (.sw 1 2 0x8005) ∧
    decode 0b101110_00001_00010_1000000000000101 = .instr (.swr 1 2 0x8005) := by decide

theorem test_decode_system :
    decode 0b000000_10101011110011011110_001100 = .instr (.syscall 0xabcde) ∧
    decode 0b000000_10101011110011011110_001101 = .instr (.brk 0xabcde) ∧
    decode 0b000000_00000_00000_00000_00000_001111 = .instr .sync := by decide

theorem test_decode_cp0 :
    decode 0b010000_00000_00010_00011_00000_000000 = .instr (.mfc0 2 3) ∧
    decode 0b010000_00100_00010_00011_00000_000000 = .instr (.mtc0 2 3) ∧
    decode 0b010000_10000_00000_00000_00000_000001 = .instr .tlbr ∧
    decode 0b010000_10000_00000_00000_00000_000010 = .instr .tlbwi ∧
    decode 0b010000_10000_00000_00000_00000_000110 = .instr .tlbwr ∧
    decode 0b010000_10000_00000_00000_00000_001000 = .instr .tlbp ∧
    decode 0b010000_10000_00000_00000_00000_010000 = .instr .rfe := by decide

theorem test_decode_cop_1 :
    decode 0b010001_00000_00010_00011_00000_000000 = .instr (.mfc1 2 3) ∧
    decode 0b010001_00010_00010_00011_00000_000000 = .instr (.cfc1 2 3) ∧
    decode 0b010001_00100_00010_00011_00000_000000 = .instr (.mtc1 2 3) ∧
    decode 0b010001_00110_00010_00011_00000_000000 = .instr (.ctc1 2 3) ∧
    decode 0b010001_01000_00000_1000000000000101 = .instr (.bc1f 0x8005) ∧
    decode 0b010001_01000_00001_1000000000000101 = .instr (.bc1t 0x8005) ∧
    decode 0b010001_1_0000100100011010001010110 = .instr (.cop1 0x123456) ∧
    decode 0b010010_00000_00010_00011_00000_000000 = .instr (.mfc2 2 3) ∧
    decode 0b010010_00010_00010_00011_00000_000000 = .instr (.cfc2 2 3) ∧
    decode 0b010010_00100_00010_00011_00000_000000 = .instr (.mtc2 2 3) ∧
    decode 0b010010_00110_00010_00011_00000_000000 = .instr (.ctc2 2 3) ∧
    decode 0b010010_01000_00000_1000000000000101 = .instr (.bc2f 0x8005) := by decide

theorem test_decode_cop_2 :
    decode 0b010010_01000_00001_1000000000000101 = .instr (.bc2t 0x8005) ∧
    decode 0b010010_1_0000100100011010001010110 = .instr (.cop2 0x123456) ∧
    decode 0b010011_00000_00010_00011_00000_000000 = .instr (.mfc3 2 3) ∧
    decode 0b010011_00010_00010_00011_00000_000000 = .instr (.cfc3 2 3) ∧
    decode 0b010011_00100_00010_00011_00000_000000 = .instr (.mtc3 2 3) ∧
    decode 0b010011_00110_00010_00011_00000_000000 = .instr (.ctc3 2 3) ∧
    decode 0b010011_01000_00000_1000000000000101 = .instr (.bc3f 0x8005) ∧
    decode 0b010011_01000_00001_1000000000000101 = .instr (.bc3t 0x8005) ∧
    decode 0b010011_1_0000100100011010001010110 = .instr (.cop3 0x123456) := by decide

theorem test_decode_undescribed_1 :
    decode 0b101111_00001_00010_1000000000000101 = .instr (.cache 1 2 0x8005) ∧
    decode 0b000000_10101011110011011110_001110 = .instr (.sdbbp 0xabcde) ∧
    decode 0b010000_10000_00000_00000_00000_011111 = .instr .deret ∧
    decode 0b010001_01000_00010_1000000000000101 = .instr (.bc1fl 0x8005) ∧
    decode 0b010001_01000_00011_1000000000000101 = .instr (.bc1tl 0x8005) ∧
    decode 0b010010_01000_00010_1000000000000101 = .instr (.bc2fl 0x8005) ∧
    decode 0b010010_01000_00011_1000000000000101 = .instr (.bc2tl 0x8005) ∧
    decode 0b010011_01000_00010_1000000000000101 = .instr (.bc3fl 0x8005) ∧
    decode 0b010011_01000_00011_1000000000000101 = .instr (.bc3tl 0x8005) ∧
    decode 0b110000_00001_00010_1000000000000101 = .instr (.lwc0 1 2 0x8005) ∧
    decode 0b111000_00001_00010_1000000000000101 = .instr (.swc0 1 2 0x8005) ∧
    decode 0b110001_00001_00010_1000000000000101 = .instr (.lwc1 1 2 0x8005) := by decide

theorem test_decode_undescribed_2 :
    decode 0b111001_00001_00010_1000000000000101 = .instr (.swc1 1 2 0x8005) ∧
    decode 0b110010_00001_00010_1000000000000101 = .instr (.lwc2 1 2 0x8005) ∧
    decode 0b111010_00001_00010_1000000000000101 = .instr (.swc2 1 2 0x8005) ∧
    decode 0b110011_00001_00010_1000000000000101 = .instr (.lwc3 1 2 0x8005) ∧
    decode 0b111011_00001_00010_1000000000000101 = .instr (.swc3 1 2 0x8005) := by decide

/-- R290: reserved encodings; R292: unused fields; R449: coprocessor words outside the table (2.1). -/
theorem test_decode_others :
    decode 0x00000001 = .reserved ∧ decode 0x0000003F = .reserved ∧ decode 0x04040000 = .reserved ∧ decode 0x40400000 = .reserved ∧
    decode 0x41000000 = .reserved ∧ decode 0x42000018 = .reserved ∧ decode 0x60000000 = .reserved ∧ decode 0x70220002 = .reserved ∧
    decode 0xFC000000 = .reserved ∧ decode 0x0000004F = .unusedField ∧ decode 0x00221860 = .unusedField ∧
    decode 0x0022181A = .unusedField ∧ decode 0x40026001 = .unusedField ∧ decode 0x43000002 = .unusedField := by decide

/-- The table word of `addiu $2, $0, -32768` (2.3) through the bytes of the decoder. -/
theorem test_decode_table_word : decodeTableWord 32 0x24028000 = some (.addiu 0 2 0x8000) ∧ decodeTableWord 32 0xFC000000 = none := by
  decide

/-! ## Single steps (spec/95_test_vectors.md, 2.2 to 2.10) -/

theorem test_add_overflow : got (run (regs 0x7FFFFFFF 0x00000001) 0x00221820) (fun t => (t.cp0.exc, t.cp0.epc, t.reg 3)) = some (12, 0xA0001000, 0x00000000) := by decide

theorem test_add_wraps_unsigned : got (run (regs 0xFFFFFFFF 0x00000001) 0x00221820) (·.reg 3) = some 0x00000000 := by decide

theorem test_addu_wraps : got (run (regs 0x7FFFFFFF 0x00000001) 0x00221821) (·.reg 3) = some 0x80000000 := by decide

theorem test_sub_overflow : got (run (regs 0x00000000 0x80000000) 0x00221822) (fun t => (t.cp0.exc, t.cp0.epc, t.reg 3)) = some (12, 0xA0001000, 0x00000000) := by decide

theorem test_sub_borrows : got (run (regs 0x00000000 0x00000001) 0x00221822) (·.reg 3) = some 0xFFFFFFFF := by decide

theorem test_subu : got (run (regs 0x00000000 0x80000000) 0x00221823) (·.reg 3) = some 0x80000000 := by decide

theorem test_and : got (run (regs 0xFF00FF00 0x0FF00FF0) 0x00221824) (·.reg 3) = some 0x0F000F00 := by decide

theorem test_or : got (run (regs 0xFF00FF00 0x0FF00FF0) 0x00221825) (·.reg 3) = some 0xFFF0FFF0 := by decide

theorem test_xor : got (run (regs 0xFF00FF00 0x0FF00FF0) 0x00221826) (·.reg 3) = some 0xF0F0F0F0 := by decide

theorem test_nor : got (run (regs 0xFF00FF00 0x00000000) 0x00201827) (·.reg 3) = some 0x00FF00FF := by decide

theorem test_slt_signed : got (run (regs 0x80000000 0x7FFFFFFF) 0x0022182A) (·.reg 3) = some 0x00000001 := by decide

theorem test_sltu_unsigned : got (run (regs 0x80000000 0x7FFFFFFF) 0x0022182B) (·.reg 3) = some 0x00000000 := by decide

theorem test_addi_overflow : got (run (regs 0x80000000 0x55555555) 0x2022FFFF) (fun t => (t.cp0.exc, t.cp0.epc, t.reg 2)) = some (12, 0xA0001000, 0x55555555) := by decide

theorem test_addi_negative : got (run (regs 0x00008000 0x00000000) 0x20228000) (·.reg 2) = some 0x00000000 := by decide

theorem test_addiu_extends_sign : got (run (regs 0x80000000 0x00000000) 0x2422FFFF) (·.reg 2) = some 0x7FFFFFFF := by decide

theorem test_slti : got (run (regs 0xFFFFFFFE 0x00000000) 0x2822FFFF) (·.reg 2) = some 0x00000001 := by decide

theorem test_sltiu_extends_sign : got (run (regs 0x00008000 0x00000000) 0x2C228000) (·.reg 2) = some 0x00000001 := by decide

theorem test_andi_extends_zero : got (run (regs 0xFFFFFFFF 0x00000000) 0x30228000) (·.reg 2) = some 0x00008000 := by decide

theorem test_ori_extends_zero : got (run (regs 0x00000001 0x00000000) 0x34228000) (·.reg 2) = some 0x00008001 := by decide

theorem test_xori_extends_zero : got (run (regs 0xFFFF0000 0x00000000) 0x3822FFFF) (·.reg 2) = some 0xFFFFFFFF := by decide

theorem test_lui : got (run (regs 0x00000000 0x00000000) 0x3C028000) (·.reg 2) = some 0x80000000 := by decide

theorem test_sll : got (run (regs 0x00000000 0x00000003) 0x00021FC0) (·.reg 3) = some 0x80000000 := by decide

theorem test_srl : got (run (regs 0x00000000 0x80000000) 0x00021FC2) (·.reg 3) = some 0x00000001 := by decide

theorem test_sra : got (run (regs 0x00000000 0x80000000) 0x00021FC3) (·.reg 3) = some 0xFFFFFFFF := by decide

theorem test_sllv_low_bits : got (run (regs 0xFFFFFFE4 0x12345678) 0x00221804) (·.reg 3) = some 0x23456780 := by decide

theorem test_srlv_low_bits : got (run (regs 0x00000021 0x80000000) 0x00221806) (·.reg 3) = some 0x40000000 := by decide

theorem test_srav_low_bits : got (run (regs 0x0000003F 0x80000000) 0x00221807) (·.reg 3) = some 0xFFFFFFFF := by decide

/-- A write of register 0 is discarded (R31). -/
theorem test_register_zero : got (run (regs 0x1 0x2) 0x00220021) (·.reg 0) = some 0 := by decide

theorem test_mult_signed : got (run (accRegs 0x00000000 0x00000000 0x80000000 0xFFFFFFFF) 0x00220018) (fun t => (t.hi, t.lo, t.reg 3)) = some (0x00000000, 0x80000000, 0x00000000) := by decide

theorem test_mult_rd : got (run (accRegs 0x00000000 0x00000000 0xFFFFFFFE 0x00000003) 0x00221818) (fun t => (t.hi, t.lo, t.reg 3)) = some (0xFFFFFFFF, 0xFFFFFFFA, 0xFFFFFFFA) := by decide

theorem test_multu : got (run (accRegs 0x00000000 0x00000000 0xFFFFFFFF 0xFFFFFFFF) 0x00220019) (fun t => (t.hi, t.lo, t.reg 3)) = some (0xFFFFFFFE, 0x00000001, 0x00000000) := by decide

theorem test_madd_carries : got (run (accRegs 0x00000000 0xFFFFFFFE 0x00000002 0x00000003) 0x70221800) (fun t => (t.hi, t.lo, t.reg 3)) = some (0x00000001, 0x00000004, 0x00000004) := by decide

theorem test_madd_wraps : got (run (accRegs 0x7FFFFFFF 0xFFFFFFFF 0x7FFFFFFF 0x7FFFFFFF) 0x70220000) (fun t => (t.hi, t.lo, t.reg 3)) = some (0xBFFFFFFF, 0x00000000, 0x00000000) := by decide

theorem test_maddu : got (run (accRegs 0xFFFFFFFF 0xFFFFFFFF 0xFFFFFFFF 0xFFFFFFFF) 0x70220001) (fun t => (t.hi, t.lo, t.reg 3)) = some (0xFFFFFFFE, 0x00000000, 0x00000000) := by decide

theorem test_div_negative : got (run (accRegs 0x00000000 0x00000000 0xFFFFFFF9 0xFFFFFFFE) 0x0022001A) (fun t => (t.hi, t.lo, t.reg 3)) = some (0xFFFFFFFF, 0x00000003, 0x00000000) := by decide

/-- -2^31 by -1 (U-DIVOVF); a division by zero completes (R385, U-DIVZERO). -/
theorem test_div_corners : got (run (accRegs 0 0 0x80000000 0xFFFFFFFF) 0x0022001A) (fun t => (t.hi, t.lo)) = some (0, 0x80000000) ∧
    got (run (accRegs 0 0 5 0) 0x0022001A) (·.pc) = some 0xA0001004 := by decide

theorem test_divu : got (run (accRegs 0x00000000 0x00000000 0xFFFFFFFF 0x00000010) 0x0022001B) (fun t => (t.hi, t.lo, t.reg 3)) = some (0x0000000F, 0x0FFFFFFF, 0x00000000) := by decide

theorem test_mfhi : got (run (accRegs 0x12345678 0x9ABCDEF0 0x00000000 0x00000000) 0x00001810) (fun t => (t.hi, t.lo, t.reg 3)) = some (0x12345678, 0x9ABCDEF0, 0x12345678) := by decide

theorem test_mflo : got (run (accRegs 0x12345678 0x9ABCDEF0 0x00000000 0x00000000) 0x00001812) (fun t => (t.hi, t.lo, t.reg 3)) = some (0x12345678, 0x9ABCDEF0, 0x9ABCDEF0) := by decide

theorem test_mthi : got (run (accRegs 0x00000001 0x00000002 0xCAFEBABE 0x00000000) 0x00200011) (fun t => (t.hi, t.lo, t.reg 3)) = some (0xCAFEBABE, 0x00000002, 0x00000000) := by decide

theorem test_mtlo : got (run (accRegs 0x00000001 0x00000002 0xCAFEBABE 0x00000000) 0x00200013) (fun t => (t.hi, t.lo, t.reg 3)) = some (0x00000001, 0xCAFEBABE, 0x00000000) := by decide

theorem test_beq_taken : got (run (branchRegs 0x00000005 0x00000005) 0x10220003) (fun t => (t.pc, t.npc, t.reg 31)) = some (0x80001004, 0x80001010, 0x00000000) := by decide

theorem test_beq_not_taken : got (run (branchRegs 0x00000005 0x00000006) 0x10220003) (fun t => (t.pc, t.npc, t.reg 31)) = some (0x80001004, 0x80001008, 0x00000000) := by decide

theorem test_bne_back : got (run (branchRegs 0x00000005 0x00000006) 0x1422FFFC) (fun t => (t.pc, t.npc, t.reg 31)) = some (0x80001004, 0x80000FF4, 0x00000000) := by decide

theorem test_bne_far : got (run (branchRegs 0x00000005 0x00000006) 0x14228000) (fun t => (t.pc, t.npc, t.reg 31)) = some (0x80001004, 0x7FFE1004, 0x00000000) := by decide

theorem test_blez_zero : got (run (branchRegs 0x00000000 0x00000000) 0x18200003) (fun t => (t.pc, t.npc, t.reg 31)) = some (0x80001004, 0x80001010, 0x00000000) := by decide

theorem test_blez_not_taken : got (run (branchRegs 0x00000001 0x00000000) 0x18200003) (fun t => (t.pc, t.npc, t.reg 31)) = some (0x80001004, 0x80001008, 0x00000000) := by decide

theorem test_bgtz_zero : got (run (branchRegs 0x00000000 0x00000000) 0x1C200003) (fun t => (t.pc, t.npc, t.reg 31)) = some (0x80001004, 0x80001008, 0x00000000) := by decide

theorem test_bgtz_taken : got (run (branchRegs 0x7FFFFFFF 0x00000000) 0x1C200003) (fun t => (t.pc, t.npc, t.reg 31)) = some (0x80001004, 0x80001010, 0x00000000) := by decide

theorem test_bltz_taken : got (run (branchRegs 0x80000000 0x00000000) 0x04200003) (fun t => (t.pc, t.npc, t.reg 31)) = some (0x80001004, 0x80001010, 0x00000000) := by decide

theorem test_bltz_not_taken : got (run (branchRegs 0x00000000 0x00000000) 0x04200003) (fun t => (t.pc, t.npc, t.reg 31)) = some (0x80001004, 0x80001008, 0x00000000) := by decide

theorem test_bgez_taken : got (run (branchRegs 0x00000000 0x00000000) 0x04210003) (fun t => (t.pc, t.npc, t.reg 31)) = some (0x80001004, 0x80001010, 0x00000000) := by decide

theorem test_bgez_not_taken : got (run (branchRegs 0xFFFFFFFF 0x00000000) 0x04210003) (fun t => (t.pc, t.npc, t.reg 31)) = some (0x80001004, 0x80001008, 0x00000000) := by decide

theorem test_bltzal_taken : got (run (branchRegs 0xFFFFFFFF 0x00000000) 0x04300003) (fun t => (t.pc, t.npc, t.reg 31)) = some (0x80001004, 0x80001010, 0x80001008) := by decide

theorem test_bltzal_not_taken_links : got (run (branchRegs 0x00000001 0x00000000) 0x04300003) (fun t => (t.pc, t.npc, t.reg 31)) = some (0x80001004, 0x80001008, 0x80001008) := by decide

theorem test_bgezal_taken : got (run (branchRegs 0x00000000 0x00000000) 0x04310003) (fun t => (t.pc, t.npc, t.reg 31)) = some (0x80001004, 0x80001010, 0x80001008) := by decide

theorem test_beql_taken : got (run (branchRegs 0x00000005 0x00000005) 0x50220003) (fun t => (t.pc, t.npc, t.reg 31)) = some (0x80001004, 0x80001010, 0x00000000) := by decide

theorem test_beql_nullifies : got (run (branchRegs 0x00000005 0x00000006) 0x50220003) (fun t => (t.pc, t.npc, t.reg 31)) = some (0x80001008, 0x8000100C, 0x00000000) := by decide

theorem test_bnel_taken : got (run (branchRegs 0x00000005 0x00000006) 0x54220003) (fun t => (t.pc, t.npc, t.reg 31)) = some (0x80001004, 0x80001010, 0x00000000) := by decide

theorem test_bnel_nullifies : got (run (branchRegs 0x00000005 0x00000005) 0x54220003) (fun t => (t.pc, t.npc, t.reg 31)) = some (0x80001008, 0x8000100C, 0x00000000) := by decide

theorem test_blezl_nullifies : got (run (branchRegs 0x00000001 0x00000000) 0x58200003) (fun t => (t.pc, t.npc, t.reg 31)) = some (0x80001008, 0x8000100C, 0x00000000) := by decide

theorem test_bgtzl_nullifies : got (run (branchRegs 0x00000000 0x00000000) 0x5C200003) (fun t => (t.pc, t.npc, t.reg 31)) = some (0x80001008, 0x8000100C, 0x00000000) := by decide

theorem test_bltzl_nullifies : got (run (branchRegs 0x00000000 0x00000000) 0x04220003) (fun t => (t.pc, t.npc, t.reg 31)) = some (0x80001008, 0x8000100C, 0x00000000) := by decide

theorem test_bgezl_nullifies : got (run (branchRegs 0x80000000 0x00000000) 0x04230003) (fun t => (t.pc, t.npc, t.reg 31)) = some (0x80001008, 0x8000100C, 0x00000000) := by decide

theorem test_bltzall_nullifies_links : got (run (branchRegs 0x00000000 0x00000000) 0x04320003) (fun t => (t.pc, t.npc, t.reg 31)) = some (0x80001008, 0x8000100C, 0x80001008) := by decide

theorem test_bgezall_taken : got (run (branchRegs 0x00000000 0x00000000) 0x04330003) (fun t => (t.pc, t.npc, t.reg 31)) = some (0x80001004, 0x80001010, 0x80001008) := by decide

theorem test_bgezall_nullifies_links : got (run (branchRegs 0x80000000 0x00000000) 0x04330003) (fun t => (t.pc, t.npc, t.reg 31)) = some (0x80001008, 0x8000100C, 0x80001008) := by decide

theorem test_j : got (run (branchRegs 0x00000000 0x00000000) 0x08000800) (fun t => (t.pc, t.npc, t.reg 31)) = some (0x80001004, 0x80002000, 0x00000000) := by decide

theorem test_jal : got (run (branchRegs 0x00000000 0x00000000) 0x0FFFFFFF) (fun t => (t.pc, t.npc, t.reg 31)) = some (0x80001004, 0x8FFFFFFC, 0x80001008) := by decide

theorem test_jr : got (run (branchRegs 0xBFC00000 0x00000000) 0x00200008) (fun t => (t.pc, t.npc, t.reg 31)) = some (0x80001004, 0xBFC00000, 0x00000000) := by decide

theorem test_jalr : got (run (branchRegs 0x80002000 0x00000000) 0x0020F809) (fun t => (t.pc, t.npc, t.reg 31)) = some (0x80001004, 0x80002000, 0x80001008) := by decide

theorem test_jalr_rd : got (run (branchRegs 0x80002000 0x00000000) 0x00202809) (fun t => (t.pc, t.npc, t.reg 5)) = some (0x80001004, 0x80002000, 0x80001008) := by decide

/-- R401. -/
theorem test_branch_in_slot : why (run { branchRegs 0 0 with ds := true } 0x10000003) = some .branchInDelaySlot := by decide

/-- 2.6: IRQHIGH = 0. -/
theorem test_bc3 : got (run { branchRegs 0 0 with cp0 := { Cp0.reset with status := 0x80400000 } } 0x4D010003) (·.npc) = some 0x80001008 ∧
    got (run { branchRegs 0 0 with cp0 := { Cp0.reset with status := 0x80400000 } } 0x4D000003) (·.npc) = some 0x80001010 := by decide

theorem test_bc3_unusable : got (run (branchRegs 0 0) 0x4D010003) (fun t => (t.cp0.ce, t.cp0.exc, t.pc)) = some (3, 11, 0xBFC00180) := by decide

theorem test_lb : got (run (memory false 0x80FF7F01 0x00000000) 0x80820003) (·.reg 2) = some 0xFFFFFF80 ∧
    got (run (memory true 0x80FF7F01 0x00000000) 0x80820003) (·.reg 2) = some 0x00000001 := by decide

theorem test_lbu : got (run (memory false 0x80FF7F01 0x00000000) 0x90820002) (·.reg 2) = some 0x000000FF ∧
    got (run (memory true 0x80FF7F01 0x00000000) 0x90820002) (·.reg 2) = some 0x0000007F := by decide

theorem test_lh : got (run (memory false 0x80FF7F01 0x00000000) 0x84820002) (·.reg 2) = some 0xFFFF80FF ∧
    got (run (memory true 0x80FF7F01 0x00000000) 0x84820002) (·.reg 2) = some 0x00007F01 := by decide

theorem test_lhu : got (run (memory false 0x80FF7F01 0x00000000) 0x94820000) (·.reg 2) = some 0x00007F01 ∧
    got (run (memory true 0x80FF7F01 0x00000000) 0x94820000) (·.reg 2) = some 0x000080FF := by decide

theorem test_lw : got (run (memory false 0x80FF7F01 0x00000000) 0x8C820000) (·.reg 2) = some 0x80FF7F01 ∧
    got (run (memory true 0x80FF7F01 0x00000000) 0x8C820000) (·.reg 2) = some 0x80FF7F01 := by decide

theorem test_lh_misaligned : got (run (memory false 0x80FF7F01 0) 0x84820001) (fun t => (t.cp0.exc, t.cp0.badVAddr, t.reg 2)) = some (4, 0xA0002001, 0) := by decide

theorem test_lwl_1 : got (run (memory false 0x11223344 0xAABBCCDD) 0x88820001) (·.reg 2) = some 0x3344CCDD ∧
    got (run (memory true 0x11223344 0xAABBCCDD) 0x88820001) (·.reg 2) = some 0x223344DD := by decide

theorem test_lwl_3 : got (run (memory false 0x11223344 0xAABBCCDD) 0x88820003) (·.reg 2) = some 0x11223344 ∧
    got (run (memory true 0x11223344 0xAABBCCDD) 0x88820003) (·.reg 2) = some 0x44BBCCDD := by decide

theorem test_lwr_1 : got (run (memory false 0x11223344 0xAABBCCDD) 0x98820001) (·.reg 2) = some 0xAA112233 ∧
    got (run (memory true 0x11223344 0xAABBCCDD) 0x98820001) (·.reg 2) = some 0xAABB1122 := by decide

theorem test_lwr_3 : got (run (memory false 0x11223344 0xAABBCCDD) 0x98820003) (·.reg 2) = some 0xAABBCC11 ∧
    got (run (memory true 0x11223344 0xAABBCCDD) 0x98820003) (·.reg 2) = some 0x11223344 := by decide

theorem test_sb : stored (run (memory false 0x11223344 0xAABBCCDD) 0xA0820001) = some 0x1122DD44 ∧
    stored (run (memory true 0x11223344 0xAABBCCDD) 0xA0820001) = some 0x11DD3344 := by decide

theorem test_sh : stored (run (memory false 0x11223344 0xAABBCCDD) 0xA4820002) = some 0xCCDD3344 ∧
    stored (run (memory true 0x11223344 0xAABBCCDD) 0xA4820002) = some 0x1122CCDD := by decide

theorem test_sw : stored (run (memory false 0x11223344 0xAABBCCDD) 0xAC820000) = some 0xAABBCCDD ∧
    stored (run (memory true 0x11223344 0xAABBCCDD) 0xAC820000) = some 0xAABBCCDD := by decide

theorem test_swl_1 : stored (run (memory false 0x11223344 0xAABBCCDD) 0xA8820001) = some 0x1122AABB ∧
    stored (run (memory true 0x11223344 0xAABBCCDD) 0xA8820001) = some 0x11AABBCC := by decide

theorem test_swl_2 : stored (run (memory false 0x11223344 0xAABBCCDD) 0xA8820002) = some 0x11AABBCC ∧
    stored (run (memory true 0x11223344 0xAABBCCDD) 0xA8820002) = some 0x1122AABB := by decide

theorem test_swr_1 : stored (run (memory false 0x11223344 0xAABBCCDD) 0xB8820001) = some 0xBBCCDD44 ∧
    stored (run (memory true 0x11223344 0xAABBCCDD) 0xB8820001) = some 0xCCDD3344 := by decide

theorem test_swr_2 : stored (run (memory false 0x11223344 0xAABBCCDD) 0xB8820002) = some 0xCCDD3344 ∧
    stored (run (memory true 0x11223344 0xAABBCCDD) 0xB8820002) = some 0xBBCCDD44 := by decide

theorem test_sw_misaligned : got (run (memory false 0x11223344 0xAABBCCDD) 0xAC820002) (fun t => (t.cp0.exc, t.cp0.badVAddr, t.wb)) = some (5, 0xA0002002, []) := by decide

theorem test_syscall : got (run (bench false 0xA0001000) 0x0000000C) (fun t => (t.cp0.exc, t.cp0.epc, t.pc)) = some (8, 0xA0001000, 0xBFC00180) := by decide

theorem test_break : got (run (bench false 0xA0001000) 0x0000000D) (fun t => (t.cp0.exc, t.cp0.epc, t.pc)) = some (9, 0xA0001000, 0xBFC00180) := by decide

/-- 2.9, first row. -/
theorem test_syscall_in_slot : got (run { bench false 0xA0001004 with ds := true, cp0 := { Cp0.reset with status := 0x0000FF01 } } 0x0000000C)
    (fun t => (t.cp0.epc, t.cp0.bd, t.cp0.status, t.pc)) = some (0xA0001000, true, 0x0000FF04, 0x80000080) := by decide

theorem test_reserved_word : got (run (bench false 0xA0001000) 0xFC000000) (fun t => (t.cp0.exc, t.pc)) = some (10, 0xBFC00180) := by decide

theorem test_sync : got (run (bench false 0xA0001000) 0x0000000F) (fun t => (t.pc, t.wb)) = some (0xA0001004, []) := by decide

theorem test_mtc0_status : got (run ((cp0Bench 0x00400000 0 0 0).setReg 2 0xFFFFFFFF) 0x40826000) (·.cp0.status) = some 0xF25FFF3F := by decide

theorem test_mtc0_index : got (run ((cp0Bench 0x00400000 0 0 0).setReg 2 0xFFFFFFFF) 0x40820000) (·.cp0.index) = some 0x00001F00 := by decide

/-- 1.1: Random is 31 on reset. -/
theorem test_mfc0_random : got (run (bench false 0xA0001000) 0x40020800) (·.reg 2) = some 0x00001F00 := by decide

theorem test_mfc0_epc : got (run { bench false 0xA0001000 with cp0 := { Cp0.reset with epc := 0xBFC00010 } } 0x401A7000) (·.reg 26) = some 0xBFC00010 := by decide

theorem test_rfe : got (run (cp0Bench 0x1040FF2D 0 0 0) 0x42000010) (·.cp0.status) = some 0x1040FF2B ∧
    got (run (cp0Bench 0x00000030 0 0 0) 0x42000010) (·.cp0.status) = some 0x0000003C := by decide

theorem test_tlbwi : got (run (cp0Bench 0x00400000 0x900 0x004000C0 0x00123600) 0x42000002) (fun t => t.tlb[9]) = some (pageEntry false true true) := by decide

theorem test_tlbr : got (run (withEntry (cp0Bench 0x00400000 0x900 0 0) (pageEntry false true true)) 0x42000001)
    (fun t => (t.cp0.entryHi, t.cp0.entryLo)) = some (0x004000C0, 0x00123600) := by decide

theorem test_tlbp : got (run (withEntry (cp0Bench 0x00400000 0 0x004000C0 0) (pageEntry false true true)) 0x42000008) (·.cp0.index) = some 0x900 ∧
    got (run (withEntry (cp0Bench 0x00400000 0 0x00400100 0) (pageEntry true true true)) 0x42000008) (·.cp0.index) = some 0x900 := by decide

/-- Random is 31 before any instruction has executed (R37). -/
theorem test_tlbwr_reset : got (run (cp0Bench 0x00400000 0 0x004000C0 0x00123600) 0x42000006) (fun t => (t.tlb[31], t.tlb[7])) =
    some (pageEntry false true true, tlbReset[7]) := by decide

/-- 2.8, last paragraph. -/
theorem test_cp0_user_mode : got (run { withEntry (cp0Bench 0x00000002 0 0 0)
      { vpn := 0x00001, pid := 0, pfn := 0x00001, n := true, d := false, v := true, g := true } with pc := 0x1000, npc := 0x1004 } 0x40026000)
    (fun t => (t.cp0.exc, t.cp0.ce, t.cp0.status, t.pc)) = some (11, 0, 0x00000008, 0x80000080) := by decide

theorem test_mfc1_unusable : got (run (bench false 0xA0001000) 0x44021800) (fun t => (t.cp0.exc, t.cp0.ce)) = some (11, 1) := by decide

theorem test_mtc2_stops : why (run (cp0Bench 0x40400000 0 0 0) 0x48821800) = some .coprocessorAbsent := by decide

theorem test_bc2t_stops : why (run (cp0Bench 0x40400000 0 0 0) 0x49010001) = some .conditionAbsent := by decide

theorem test_undescribed_stops : why (run (bench false 0xA0001000) 0xBC000000) = some .undescribedEncoding ∧
    why (run (bench false 0xA0001000) 0xC4000000) = some .undescribedEncoding ∧
    why (run (bench false 0xA0001000) 0x4200001F) = some .undescribedEncoding := by decide

theorem test_unused_field_stops : why (run (bench false 0xA0001000) 0x00221860) = some .unusedField := by decide

/-! ## Exceptions, interrupts, translation, modules (2.8, 2.9, 2.13) -/

theorem test_refill_kuseg : got (run { (withEntry (cp0Bench 0 0 0x00000100 0) (pageEntry false true true)).setReg 1 0x00400010 with wb := [] } 0x8C230000)
    (fun t => (t.cp0.exc, t.cp0.entryHi, t.cp0.context, t.pc)) = some (2, 0x00400100, 0x00001000, 0x80000000) := by decide

theorem test_refill_kseg2 : got (run ((cp0Bench 0 0 0x00000FC0 0).setReg 1 0xC0000010) 0x8C230000)
    (fun t => (t.cp0.badVAddr, t.cp0.context, t.cp0.entryHi, t.pc)) = some (0xC0000010, 0x00100000, 0xC0000FC0, 0x80000080) := by decide

theorem test_modified : got (run ((withEntry (cp0Bench 0 0 0x000000C0 0) (pageEntry false false true)).setReg 1 0x00400010) 0xAC230000)
    (fun t => (t.cp0.exc, t.pc, t.wb)) = some (1, 0x80000080, []) := by decide

/-- R481. -/
theorem test_nesting : pushStatus (pushStatus 0x00000003) = 0x00000030 ∧ popStatus (popStatus 0x00000030) = 0x0000003F := by decide

theorem test_interrupt_taken : got (step { cp0Bench 0x00000101 0 0 0 with cp0 := { Cp0.reset with status := 0x101, sw := 1 } })
    (fun t => (t.cp0.status, t.cp0.epc, t.cp0.exc, t.pc)) = some (0x00000104, 0xA0001000, 0, 0x80000080) := by decide

/-- R652. -/
theorem test_interrupt_example : (let i : Intr := { Intr.reset with st2 := 0x80200000, st5 := 0x20000000, en2 := 0x00200000, en6 := 0x00040C00 }
    i.status6) = 0xC000002C := by decide

theorem test_remap : (let b : Biu := { Biu.reset true with mc0 := 0x02000001, mc6 := 0x11002008, mc8 := 0x00103000 }
    (b.remap 0x11002A34 = .ok 0x00103A34) ∧ (b.remap 0x11003A34 = .ok 0x11003A34) ∧ (b.remap 0x11001A34 = .ok 0x11001A34)) := by decide

/-- R923. -/
theorem test_periodic_timer : (let d := { Dev.reset true with timer := { Timer.reset with ctl := 0x10, perVal := 0x47F } }
    (d.periodicClock.timer.perCnt, d.periodicClock.intr.st5) = (0x47F, 0x20000000)) := by decide

/-- R52: a cached load that hits reads the cache; R243: it makes no access and leaves MEMPOWERDOWN alone. -/
theorem test_cached_hit :
    got (exec (.lw 4 2 0) (State.setReg
        { State.reset with dcache := dPut true dcacheReset 0x2000 ⟨none, some { tag := dTag 0x2000, word := 0x55 }⟩ } 4 0x80002000))
      (fun t => (t.reg 2, t.dev.biu.mc4.getLsbD 16)) = some (0x55, true) := by decide

/-- R188, U-BIUHANG: without the watch dog a load that nothing answers waits; the instruction does not complete. -/
theorem test_silent_load_waits :
    got (exec (.lw 4 2 0) ((bench false 0xA0001000).setReg 4 0xFF001234)) (fun t => (t.pc, t.reg 2, t.dev.biu.held)) =
      some (0xA0001000, 0, some .core) := by decide

/-- R222: HDRAM is reached only with its enable. -/
theorem test_hdram_enable :
    (let b := { Board.default with bank0 := { row := some 6, hdram := true } }
     (ramBiu.bankCheck b false, ({ ramBiu with mc4 := 0x40004000 } : Biu).bankCheck b false)) = (some .ramGeometry, none) := by decide

/-! ## Witnesses: for each statement with hypotheses, states and operands that meet them together -/

/-- A user-mode state whose register 4 points at kseg1. -/
def userBench : State := { memory false 0 0 with cp0 := { Cp0.reset with status := 0x00000002 } }

/-- Reserved words of the five kinds, of the two kinds of coprocessor 0, of coprocessor 1; words with a non-zero unused field. -/
theorem test_witness_ReservedEncodings :
    opOf 0xFC000000 ∈ [0x3F#6] ∧ (opOf 0x00000001 = 0 ∧ functOf 0x00000001 ∈ [0x01#6]) ∧
    (opOf 0x0000002C = 0 ∧ 0x2C ≤ (functOf 0x0000002C).toNat) ∧ (opOf 0x70000002 = 0x1C ∧ 2 ≤ (functOf 0x70000002).toNat) ∧
    (opOf 0x04040000 = 1 ∧ 4 ≤ (rtOf 0x04040000).toNat % 16) ∧
    (opOf 0x00221860 = 0 ∧ functOf 0x00221860 = 0x20 ∧ shamtOf 0x00221860 ≠ 0) ∧ (opOf 0x3C220000 = 0x0F ∧ rsOf 0x3C220000 ≠ 0) := by
  decide

theorem test_witness_ReservedEncodings_coprocessors :
    State.reset.cop0Usable = true ∧ userBench.cop0Usable = false ∧
    (opOf 0x40400000 = 0x10 ∧ (0x40400000 : Word).getLsbD 25 = false ∧ rsOf 0x40400000 ≠ 0 ∧ rsOf 0x40400000 ≠ 4) ∧
    (opOf 0x42000018 = 0x10 ∧ (0x42000018 : Word).getLsbD 25 = true ∧ functOf 0x42000018 = 0x18) ∧
    (opOf 0x43000002 = 0x10 ∧ (0x43000002 : Word).getLsbD 25 = true ∧ functOf 0x43000002 = 0x02 ∧ codeOf 0x43000002 ≠ 0x80000) ∧
    (opOf 0x45040000 = BitVec.ofNat 6 (0x10 + 1) ∧ (0x45040000 : Word).getLsbD 25 = false ∧ rsOf 0x45040000 = 0x08 ∧
      3 < (rtOf 0x45040000).toNat) ∧
    (opOf 0x44021801 = BitVec.ofNat 6 (0x10 + 1) ∧ (0x44021801 : Word).getLsbD 25 = false ∧ rsOf 0x44021801 = 0 ∧ functOf 0x44021801 ≠ 0) ∧
    (cp0Bench 0xE0000000 0 0 0).copUsable 1 = true ∧ State.reset.copUsable 1 = false := by decide

/-- The reset state with `addiu $2, $0, -32768` at the boot vector. -/
def boot : State := State.reset.withFetchWord 32 0x24028000

theorem test_witness_StepRunsDecodedInstruction :
    ∃ t, boot.agenda = [] ∧ boot.dev.coreRuns = true ∧ decode 0x24028000 = .instr (.addiu 0 2 0x8000) ∧ boot.pending = .none ∧
      boot.dev.intr.nmi = false ∧ boot.interruptPending = false ∧ boot.fetch = .ok 0x24028000 t :=
  ⟨_, rfl, rfl, rfl, rfl, rfl, rfl, rfl⟩

/-- The fetch that waited, and the instruction that waited. -/
theorem test_witness_StepRunsDecodedInstruction_pending :
    (∃ t, State.fetch { boot with pending := .fetch } = .ok 0x24028000 t) ∧
    ({ boot with pending := .exec 0x24028000 } : State).pending = .exec 0x24028000 := ⟨⟨_, rfl⟩, rfl⟩

/-- An instruction at 0xFFFFFFFC whose successor is address 0: here the step stops; so it does after the delay slot there of a branch that
was not taken, and not after that of a jump to 0. -/
theorem test_witness_StepRunsDecodedInstruction_wrap :
    why (step { bench false 0xFFFFFFFC with pending := .exec 0x24028000 }) = some .pcWrap ∧
    why (step { bench false 0xFFFFFFFC with pending := .exec 0x24028000, ds := true, recent := [.untaken] }) = some .pcWrap ∧
    got (step { bench false 0xFFFFFFFC with pending := .exec 0x24028000, ds := true }) (·.pc) = some 0 := by decide

theorem test_witness_PlacedWordIsFetched : (0xFFFFFFFF : Nat) < 2 ^ 32 := by decide

theorem test_witness_OperandValues :
    NoHazards State.reset ∧ ({ State.reset with recent := [.loaded 2 7 .right] } : State).recent = .loaded 2 7 .right :: [] :=
  ⟨nofun, rfl⟩

theorem test_witness_MultiplyResults : HiLoSettled State.reset := rfl

theorem test_witness_DivideResults : HiLoSettled (regs 7 0) ∧ (regs 7 0).opReg 2 = 0 ∧ HiLoSettled (regs 7 3) ∧ (regs 7 3).opReg 2 ≠ 0 :=
  ⟨rfl, by decide, rfl, by decide⟩

theorem test_witness_DivideResults_corner :
    ((regs 0x80000000 0xFFFFFFFF).opReg 1).toInt = -2 ^ 31 ∧ ((regs 0x80000000 0xFFFFFFFF).opReg 2).toInt = -1 := by decide

theorem test_witness_HiLoMoves : HiLoSettled { State.reset with recent := [.plain, .plain, .hiLoRead 3 false] } := rfl

/-- One value that has been used, and two of which none has. -/
theorem test_witness_HiLoHazard :
    (let reads := (({ State.reset with recent := [.plain, .hiLoRead 3 true] } : State).recent.take 2).filterMap Trace.hiLo
     reads = [(3, true)] ∧ reads.any (·.2) = true) ∧
    (let reads := (({ State.reset with recent := [.hiLoRead 4 false, .hiLoRead 3 false] } : State).recent.take 2).filterMap Trace.hiLo
     reads = [(4, false), (3, false)] ∧ reads.any (·.2) = false) := by decide

theorem test_witness_OverflowTraps :
    (¬ ((-2 ^ 31 : Int) ≤ ((regs 0x7FFFFFFF 1).opReg 1).toInt + ((regs 0x7FFFFFFF 1).opReg 2).toInt ∧
      ((regs 0x7FFFFFFF 1).opReg 1).toInt + ((regs 0x7FFFFFFF 1).opReg 2).toInt < 2 ^ 31)) ∧
    ((-2 ^ 31 : Int) ≤ ((regs 0x7FFFFFFF 0).opReg 1).toInt + ((regs 0x7FFFFFFF 0).opReg 2).toInt ∧
      ((regs 0x7FFFFFFF 0).opReg 1).toInt + ((regs 0x7FFFFFFF 0).opReg 2).toInt < 2 ^ 31) := by decide

theorem test_witness_Jumps : State.reset.ds = false := by decide

theorem test_witness_Branches :
    (branchRegs 5 5).ds = false ∧ (branchRegs 5 5).opReg 1 = (branchRegs 5 5).opReg 2 ∧
    (branchRegs 5 6).opReg 1 ≠ (branchRegs 5 6).opReg 2 ∧ ((branchRegs 0 0).opReg 1).toInt ≤ 0 ∧ 0 < ((branchRegs 1 0).opReg 1).toInt ∧
    ((branchRegs 0xFFFFFFFF 0).opReg 1).toInt < 0 ∧ 0 ≤ ((branchRegs 0 0).opReg 1).toInt := by decide

theorem test_witness_LikelyBranches :
    (branchRegs 0 0).ds = false ∧ ¬ 0 < ((branchRegs 0 0).opReg 1).toInt ∧ ¬ ((branchRegs 0 0).opReg 1).toInt < 0 ∧
    ¬ ((branchRegs 1 0).opReg 1).toInt ≤ 0 ∧ ¬ 0 ≤ ((branchRegs 0xFFFFFFFF 0).opReg 1).toInt := by decide

theorem test_witness_LinkingBranches :
    (branchRegs 0 0).ds = false ∧ ((branchRegs 0xFFFFFFFF 0).opReg 1).toInt < 0 ∧
    0 ≤ ((branchRegs 0 0).opReg 1).toInt := by decide

theorem test_witness_BranchStops :
    ({ State.reset with ds := true } : State).ds = true ∧ (5 : Reg) ≠ 31 ∧ (31 : Reg) ≠ 5 := by decide

theorem test_witness_InterruptConditionBranches :
    (cp0Bench 0x80400000 0 0 0).ds = false ∧ (∀ z ∈ [1, 2, 3], (cp0Bench 0xE0400000 0 0 0).copUsable z = true) ∧
    (∀ z ∈ [1, 2, 3], (cp0Bench 0x00400000 0 0 0).copUsable z = false) := by decide

/-- A word in RAM at physical 0x2000 through kseg1, at every offset in both byte orders: what a data read of any lanes gives. -/
theorem reads_ram (big : Bool) (o : Nat) (h : o < 4) (be : BitVec 4) :
    ∃ u, ReadsWord (memory big 0x80FF7F01 0) ((memory big 0x80FF7F01 0).effAddr 4 (BitVec.ofNat 16 o)) be 0x80FF7F01 u := by
  have h4 : o = 0 ∨ o = 1 ∨ o = 2 ∨ o = 3 := by omega
  obtain ⟨w, y, z, hw⟩ := State.transact_bank (s := memory big 0x80FF7F01 0) (u := .core) (second := false) (key := 0x2000) (a := .ram)
    (by cases big <;> rfl) (by cases big <;> rfl) (by cases big <;> decide) (by cases big <;> decide) (by cases big <;> rfl) be false
  have ht : (memory big 0x80FF7F01 0).target 0x2000 = .ok (.cells (.bank false) 0x2000 .ram) := by cases big <;> decide
  have hr := State.busRead_cells ht nofun hw .dbe
  have hm : (memory big 0x80FF7F01 0).mem.readWord (memory big 0x80FF7F01 0).board.bigEndian 0x2000 = 0x80FF7F01 := by cases big <;> decide
  rw [hm] at hr
  obtain ⟨v, hv⟩ : ∃ v, (memory big 0x80FF7F01 0).busRead .core 0x2000 be .dbe = .ok 0x80FF7F01 v := ⟨_, hr⟩
  refine ⟨v, 0x2000 + BitVec.ofNat 32 o, false, ?_, ?_⟩
  · cases big <;> rcases h4 with rfl | rfl | rfl | rfl <;> exact State.translate_direct (by decide) (by decide)
  · have hwa : wordAddr (0x2000 + BitVec.ofNat 32 o) = 0x2000 := by rcases h4 with rfl | rfl | rfl | rfl <;> decide
    have hreg : ∀ p, (memory big 0x80FF7F01 0).registerCheck (0x2000 + BitVec.ofNat 32 o) false p = none := fun p =>
      State.registerCheck_memory (by cases big <;> rcases h4 with rfl | rfl | rfl | rfl <;> decide) _ _
    have hd : (memory big 0x80FF7F01 0).drainAll = .ok () (memory big 0x80FF7F01 0) := State.drainAll_empty (by cases big <;> rfl)
    simp only [State.dataRead, Bool.false_eq_true, if_false, hd, Res.bind, hreg, hwa]
    exact hv

theorem test_witness_AlignedLoads (big : Bool) (o : Nat) (h : o < 4) :
    ∃ u, ReadsWord (memory big 0x80FF7F01 0) ((memory big 0x80FF7F01 0).effAddr 4 (BitVec.ofNat 16 o))
      ((memory big 0x80FF7F01 0).byteBe ((memory big 0x80FF7F01 0).effAddr 4 (BitVec.ofNat 16 o))) 0x80FF7F01 u := reads_ram big o h _

theorem test_witness_AlignedLoads_half_word (big : Bool) :
    (∃ u, ReadsWord (memory big 0x80FF7F01 0) ((memory big 0x80FF7F01 0).effAddr 4 2)
      ((memory big 0x80FF7F01 0).halfBe ((memory big 0x80FF7F01 0).effAddr 4 2)) 0x80FF7F01 u) ∧
    (∃ u, ReadsWord (memory big 0x80FF7F01 0) ((memory big 0x80FF7F01 0).effAddr 4 0) 0xF 0x80FF7F01 u) ∧
    ((memory big 0x80FF7F01 0).effAddr 4 2).toNat % 2 = 0 ∧ ((memory big 0x80FF7F01 0).effAddr 4 0).toNat % 4 = 0 :=
  ⟨reads_ram big 2 (by decide) _, reads_ram big 0 (by decide) _, by cases big <;> decide, by cases big <;> decide⟩

theorem test_witness_UnalignedLoads (big : Bool) :
    (∃ u, ReadsWord (memory big 0x80FF7F01 0) ((memory big 0x80FF7F01 0).effAddr 4 3)
      (leftEnable (leftShift big ((memory big 0x80FF7F01 0).effAddr 4 3))) 0x80FF7F01 u) ∧
    (∃ u, ReadsWord (memory big 0x80FF7F01 0) ((memory big 0x80FF7F01 0).effAddr 4 1)
      (rightEnable (rightShift big ((memory big 0x80FF7F01 0).effAddr 4 1))) 0x80FF7F01 u) :=
  ⟨reads_ram big 3 (by decide) _, reads_ram big 1 (by decide) _⟩

/-- A machine with the word 5 at a place in the data cache. -/
def withLine (s : State) (a : Word) : State := { s with dcache := dPut true dcacheReset a { way0 := some { tag := dTag a, word := 5 }, way1 := none } }

/-- The word at physical 0x2000 is in the data cache; a word of the boot ROM is. -/
def cacheBench : State := withLine (memory false 0x11223344 7) 0x2000
def romBench : State := withLine (memory false 0x11223344 7) 0x51000040

theorem test_witness_LoadedWords :
    (∃ v, (memory false 7 0).drainAll = .ok () (memory false 7 0) ∧ (memory false 7 0).isRegister 0x2001 = false ∧
      (memory false 7 0).target (wordAddr 0x2001) = .ok (.cells (.bank false) 0x2000 .ram) ∧
      (memory false 7 0).transact .core (.cells (.bank false) 0x2000 .ram) 2 false = .ok true v) ∧
    (cacheBench.mapAhead.isRegister 0x2001 = false ∧ cacheBench.cachedWord (wordAddr 0x2001) = some 5) ∧
    (∃ v ws, (memory false 7 0).mapAhead.isRegister 0x2004 = false ∧ (memory false 7 0).cachedWord (wordAddr 0x2004) = none ∧
      (memory false 7 0).drainAll = .ok () (memory false 7 0) ∧
      (memory false 7 0).burstRead .core (blockBase (wordAddr 0x2004) 4) .dbe 4 = .ok ws v ∧
      ∀ k < 4, (v.place (blockBase (wordAddr 0x2004) 4 + BitVec.ofNat 32 (4 * k))).isSome) :=
  ⟨⟨_, rfl, by decide, by decide, rfl⟩, ⟨by decide, by decide⟩, ⟨_, _, by decide, by decide, rfl, rfl, by decide⟩⟩

theorem test_witness_AddressErrors :
    ((memory false 0 0).effAddr 4 1).toNat % 2 ≠ 0 ∧ ((memory false 0 0).effAddr 4 2).toNat % 4 ≠ 0 ∧
    StatusSettled userBench ∧ userBench.cp0.status.getLsbD 1 = true ∧ (userBench.effAddr 4 0).getLsbD 31 = true ∧
    userBench.pc.getLsbD 31 = true ∧ (∀ w, userBench.pending ≠ .exec w) ∧ (bench false 0xA0001002).pc.toNat % 4 ≠ 0 :=
  ⟨by decide, by decide, nofun, by decide, by decide, by decide, nofun, by decide⟩

/-- A machine whose TLB holds no entry for x[4] = 0x00401000, and one whose x[4] = 0xFF001234 selects nothing, fetching from there too. -/
def missBench : State := (bench false 0xA0001000).setReg 4 0x00401000
def silentBench (watch : Bool) : State :=
  { (bench false 0xFF001234).setReg 4 0xFF001234 with
    dev := { Dev.reset true with biu := { ramBiu with mc4 := if watch then 0x01004000 else 0x00004000 } } }

theorem test_witness_AccessExceptions :
    missBench.translate .load (missBench.effAddr 4 0) = .exc (.tlbl 0x00401000 true) missBench ∧
    missBench.translate .store (missBench.effAddr 4 0) = .exc (.tlbs 0x00401000 true) missBench ∧
    (missBench.effAddr 4 0).toNat % 4 = 0 ∧
    (bench false 0x00001000).translate .fetch 0x00001000 = .exc (.tlbl 0x00001000 true) (bench false 0x00001000) ∧
    (∀ w, (bench false 0x00001000).pending ≠ .exec w) := ⟨rfl, rfl, by decide, rfl, nofun⟩

theorem test_witness_AccessExceptions_bus :
    (silentBench true).translate .load ((silentBench true).effAddr 4 0) = .ok (0xFF001234, false) (silentBench true) ∧
    (silentBench true).translate .fetch (silentBench true).pc = .ok (0xFF001234, false) (silentBench true) ∧
    (silentBench true).wb = [] ∧ ((silentBench true).effAddr 4 0).toNat % 4 = 0 ∧ (silentBench true).pc.toNat % 4 = 0 ∧
    (silentBench true).isRegister 0xFF001234 = false ∧ (0xFF001234 : Word) = wordAddr 0xFF001234 ∧
    (silentBench true).target (wordAddr 0xFF001234) = .ok .silent ∧ (silentBench true).dev.biu.mc4.getLsbD 24 = true ∧
    (silentBench true).dev.biu.held = none ∧ (silentBench true).dev.biu.turn ≠ .over ∧ (silentBench true).dev.granted = false :=
  ⟨rfl, rfl, rfl, by decide, by decide, by decide, by decide, by decide, by decide, rfl, by decide, by decide⟩

/-- x[4] points at Interrupt Status 1 through kseg1, and through kseg0. -/
def registerBench (cached : Bool) : State := (bench false 0xA0001000).setReg 4 (if cached then 0x90C00100 else 0xB0C00100)

/-- An address whose `lwl` covers the whole word, one whose `lwl` and `lwr` cover part of it. -/
theorem test_witness_FunctionRegisterAccess_partial :
    ((registerBench false).isRegister 0x10C00101 = true ∧ (registerBench false).mapAhead.isRegister 0x10C00101 = true ∧
      (registerBench true).mapAhead.isRegister 0x10C00103 = true) ∧
    (((registerBench false).effAddr 4 1).toNat % 4 = 1 ∧ ((registerBench false).effAddr 4 3).toNat % 4 = 3) ∧
    (registerBench false).board.bigEndian = false ∧
    (registerBench false).translate .load ((registerBench false).effAddr 4 3) = .ok (0x10C00103, false) (registerBench false) ∧
    (registerBench false).translate .load ((registerBench false).effAddr 4 1) = .ok (0x10C00101, false) (registerBench false) ∧
    (registerBench false).translate .store ((registerBench false).effAddr 4 1) = .ok (0x10C00101, false) (registerBench false) ∧
    (registerBench true).translate .store ((registerBench true).effAddr 4 3) = .ok (0x10C00103, true) (registerBench true) ∧
    (registerBench false).target (wordAddr 0x10C00103) = .ok (.register 0x100) :=
  ⟨by decide, by decide, rfl, State.translate_direct (by decide) (by decide), State.translate_direct (by decide) (by decide),
    State.translate_direct (by decide) (by decide), rfl, by decide⟩

theorem test_witness_FunctionRegisterAccess :
    (registerBench false).wb = [] ∧
    (registerBench false).translate .load ((registerBench false).effAddr 4 0) = .ok (0x10C00100, false) (registerBench false) ∧
    (registerBench false).isRegister 0x10C00100 = true ∧ (registerBench false).mapAhead.isRegister 0x10C00100 = true ∧
    (registerBench true).mapAhead.isRegister 0x10C00100 = true ∧ (registerBench false).target (wordAddr 0x10C00100) = .ok (.register 0x100) ∧
    ((registerBench false).effAddr 4 0).toNat % 4 = 0 ∧ ((registerBench false).effAddr 4 2).toNat % 2 = 0 ∧
    (∃ u w d, (registerBench false).transact .core (.register 0x100) 0xF false = .ok true u ∧
      u.dev.frRead (registerBench false).board.variant 0x100 ((registerBench false).free tagWriteOnly)
        ((registerBench false).free tagTorn) = some (w, d)) ∧
    (registerBench false).translate .store ((registerBench false).effAddr 4 0) = .ok (0x10C00100, false) (registerBench false) ∧
    (registerBench true).translate .store ((registerBench true).effAddr 4 0) = .ok (0x10C00100, true) (registerBench true) ∧
    (registerBench true).translate .load ((registerBench true).effAddr 4 0) = .ok (0x10C00100, true) (registerBench true) ∧
    (∃ u d, (registerBench false).transact .buffer (.register 0x100) 0xF true = .ok true u ∧
      u.dev.frWrite (registerBench false).board.variant 0x100 0xFFFFFFFF ((registerBench false).free tagOverrun) = .ok d) :=
  ⟨rfl, rfl, by decide, by decide, by decide, by decide, by decide, by decide, ⟨_, _, _, rfl, rfl⟩, rfl, rfl, rfl, ⟨_, _, rfl, rfl⟩⟩

theorem test_witness_StoresEnterWriteBuffer :
    StoresCells (memory false 0 0) ((memory false 0 0).effAddr 4 3) 0x2003 false (byteEnable (byteLane false 0xA0002003)) ∧
    StoresCells (memory false 0 0) ((memory false 0 0).effAddr 4 2) 0x2002 false (halfEnable (halfLane false 0xA0002002)) ∧
    StoresCells (memory true 0 0) ((memory true 0 0).effAddr 4 0) 0x2000 false 0xF ∧
    StoresCells (memory false 0 0) ((memory false 0 0).effAddr 4 1) 0x2001 false (leftEnable (leftShift false 0xA0002001)) ∧
    StoresCells (memory true 0 0) ((memory true 0 0).effAddr 4 1) 0x2001 false (rightEnable (rightShift true 0xA0002001)) ∧
    (memory false 0 0).wb.length < 4 :=
  ⟨⟨State.translate_direct (by decide) (by decide), by decide⟩, ⟨State.translate_direct (by decide) (by decide), by decide⟩,
    ⟨State.translate_direct (by decide) (by decide), by decide⟩, ⟨State.translate_direct (by decide) (by decide), by decide⟩,
    ⟨State.translate_direct (by decide) (by decide), by decide⟩, by decide⟩

/-- A word of RAM in the cache, one that is not, an address of another word, and a word of ROM in the cache. -/
theorem test_witness_StoresEnterWriteBuffer_cache :
    cacheBench.cachedWord 0x2000 = some 5 ∧ cacheBench.place 0x2000 = some (0x2000, .ram) ∧ cacheBench.cachedWord 0x2004 = none ∧
    (cacheBench.place 0x2004).map (·.1.extractLsb' 2 30) ≠ (cacheBench.place 0x2000).map (·.1.extractLsb' 2 30) ∧
    romBench.cachedWord 0x11000040 = some 5 ∧ romBench.place 0x11000040 = some (0x51000040, .rom) := by decide

theorem test_witness_WriteReachesMemory :
    (memory false 0x11223344 0).mem.wf = true ∧ (memory false 0x11223344 0).target 0x2000 = .ok (.cells (.bank false) 0x2000 .ram) ∧
    ∃ v, (memory false 0x11223344 0).transact .buffer (.cells (.bank false) 0x2000 .ram) 0xF true = .ok true v :=
  ⟨by decide, by decide, _, rfl⟩

/-- Four stores wait for the bus. -/
def fullBench : State := { memory false 0 7 with wb := List.replicate 4 { pa := 0x2000, data := 1, be := 0xF } }

theorem test_witness_FullWriteBufferDrains :
    (∃ v e es, fullBench.wb = e :: es ∧ es.length = 3 ∧ fullBench.busWrite e = .ok () v) ∧
    StoresCells fullBench (fullBench.effAddr 4 0) 0x2000 false 0xF ∧ (fullBench.effAddr 4 0).toNat % 4 = 0 :=
  ⟨⟨_, _, _, rfl, rfl, rfl⟩, ⟨State.translate_direct (by decide) (by decide), by decide⟩, by decide⟩

/-- A store waits for the bus. -/
def oneBench : State := { memory false 0 7 with wb := [{ pa := 0x2000, data := 1, be := 0xF }] }

theorem test_witness_StoreThenLoad :
    oneBench.mem.wf = true ∧ oneBench.wb.length < 4 ∧ StatusSettled oneBench ∧ oneBench.cp0.status.getLsbD 1 = false ∧
    oneBench.opReg 4 = oneBench.reg 4 ∧ (oneBench.effAddr 4 0).extractLsb' 29 3 = 0b101#3 ∧ (oneBench.effAddr 4 0).toNat % 4 = 0 ∧
    ∃ t d, exec (.sw 4 2 0) oneBench = .next t ∧ State.drain oneBench.wb.length t = .ok () d ∧
      d.isRegister (oneBench.effAddr 4 0 &&& 0x1FFFFFFF) = false ∧
      d.target (oneBench.effAddr 4 0 &&& 0x1FFFFFFF) = .ok (.cells (.bank false) 0x2000 .ram) ∧ d.dev.biu.held = none ∧
      d.dev.biu.turn = .whole ∧ d.dev.busRequest = false ∧ d.dev.granted = false ∧ d.dev.biu.powerDown = false :=
  ⟨by decide, by decide, nofun, by decide, by decide, by decide, by decide, _, _, rfl, rfl, rfl, rfl, rfl, rfl, rfl, rfl, rfl⟩

/-- A buffer that drains, and one whose entry nothing acknowledges. -/
theorem test_witness_SyncEmptiesWriteBuffer :
    (∃ d, fullBench.drainAll = .ok () d) ∧
    (∃ d, State.drainAll { silentBench false with wb := [{ pa := 0xFF001234, data := 1, be := 0xF }] } = .wait d) ∧ State.reset.wb = [] :=
  ⟨⟨_, rfl⟩, ⟨_, rfl⟩, rfl⟩

theorem test_witness_ExceptionVectors : StatusSettled State.reset ∧ (0x7FFFF000 : Word).getLsbD 31 = false := ⟨nofun, by decide⟩

theorem test_witness_ReturnFromException : State.reset.cop0Usable = true := by decide

/-- A software interrupt that is enabled (both of the statement's cases). -/
def interruptBench (ie : Bool) : State :=
  { bench false 0xA0001000 with cp0 := { Cp0.reset with status := if ie then 0x101 else 0x100, sw := 1 } }

theorem test_witness_InterruptTaken :
    StatusSettled (interruptBench true) ∧ (interruptBench true).agenda = [] ∧ (interruptBench true).dev.coreRuns = true ∧
    (interruptBench true).pending = .none ∧ (interruptBench true).dev.intr.nmi = false ∧
    (interruptBench true).cp0.status.getLsbD 0 = true ∧ (interruptBench true).cp0.sw.getLsbD 0 = true ∧
    (interruptBench true).cp0.status.getLsbD 8 = true ∧ (interruptBench false).cp0.status.getLsbD 0 = false :=
  ⟨nofun, rfl, rfl, rfl, rfl, rfl, rfl, rfl, rfl⟩

/-- The PWROK NMI is pending. -/
def nmiBench : State :=
  { bench false 0xA0001000 with dev := { Dev.reset true with intr := { Intr.reset with nmi := true } } }

theorem test_witness_NmiTaken :
    nmiBench.agenda = [] ∧ nmiBench.dev.coreRuns = true ∧ nmiBench.pending = .none ∧ nmiBench.dev.intr.nmi = true := by decide

theorem test_witness_Coprocessor0Unusable : userBench.cop0Usable = false := by decide

theorem test_witness_Mfc0Values : State.reset.cop0Usable = true ∧ NoHazards State.reset ∧ State.reset.fresh = true :=
  ⟨by decide, nofun, rfl⟩

theorem test_witness_Mtc0Writes : State.reset.cop0Usable = true := by decide

theorem test_witness_TlbWrites : (cp0Bench 0 0x1F00 0 0).cop0Usable = true ∧ NoHazards (cp0Bench 0 0x1F00 0 0) := ⟨by decide, nofun⟩

theorem test_witness_TlbReads : (cp0Bench 0 0x900 0 0).cop0Usable = true ∧ NoHazards (cp0Bench 0 0x900 0 0) := ⟨by decide, nofun⟩

/-- One state whose probe finds an entry and one whose probe finds none. -/
theorem test_witness_TlbProbes :
    (cp0Bench 0 0 0x80009000 0).cop0Usable = true ∧ NoHazards (cp0Bench 0 0 0x80009000 0) ∧ (cp0Bench 0 0 0x80009000 0).tlb[9].vpn = 0x80009 ∧
    NoHazards (cp0Bench 0 0 0 0) := ⟨by decide, nofun, by decide, nofun⟩

/-- The state after `tlbwi`; a later state without hazards is the same state with the trace gone. -/
theorem test_witness_TlbWriteThenRead :
    (cp0Bench 0 0x900 0x004000C0 0x00123600).cp0.Inv ∧ (cp0Bench 0 0x900 0x004000C0 0x00123600).cop0Usable = true ∧
    NoHazards (cp0Bench 0 0x900 0x004000C0 0x00123600) ∧ (cp0Bench 0 0x900 0x004000C0 0x00123600).board.hazardSlots ≠ 0 ∧
    ∃ t, exec .tlbwi (cp0Bench 0 0x900 0x004000C0 0x00123600) = .next t ∧ State.cop0Usable { t with recent := [] } = true ∧
      NoHazards { t with recent := [] } :=
  ⟨⟨by decide, by decide, by decide, by decide, by decide⟩, by decide, nofun, by decide, _, rfl, rfl, nofun⟩

theorem test_witness_CoprocessorOperations :
    (∀ z ∈ [1, 2, 3], (cp0Bench 0 0 0 0).copUsable z = false) ∧ (∀ z ∈ [1, 2, 3], (cp0Bench 0xE0000000 0 0 0).copUsable z = true) := by decide

theorem test_witness_UndescribedEncodings :
    State.reset.cop0Usable = true ∧ (3#5) ∉ [0#5, 1#5, 2#5, 4#5, 8#5, 10#5, 12#5, 13#5, 14#5, 15#5] := by decide

/-- The ends of the three ranges. -/
theorem test_witness_UnmappedSegments :
    StatusSettled State.reset ∧ State.reset.cp0.status.getLsbD 1 = false ∧
    (0x80000000 ≤ (0x9FFFFFFF : Word).toNat ∧ (0x9FFFFFFF : Word).toNat < 0xA0000000) ∧
    (0xA0000000 ≤ (0xA0000000 : Word).toNat ∧ (0xA0000000 : Word).toNat < 0xC0000000) ∧
    (0xFF000000 ≤ (0xFFFEFFFF : Word).toNat ∧ (0xFFFEFFFF : Word).toNat < 0xFFFF0000) :=
  ⟨nofun, by decide, by decide, by decide, by decide⟩

/-- A kuseg page with one matching entry, a kseg2 page with none, and the last page of kseg2. -/
theorem test_witness_MappedTranslation :
    (let s := withEntry (cp0Bench 0 0 0x000000C0 0) (pageEntry false true true)
     NoHazards s ∧ (0x00400ABC : Word).getLsbD 31 = false ∧
     (s.tlb[9].vpn = (0x00400ABC : Word).extractLsb' 12 20 ∧ s.tlb[9].pid = s.cp0.entryHi.extractLsb' 6 6) ∧
     (∀ m : BitVec 5, (s.tlb[m.toNat]'m.isLt).vpn = (0x00400ABC : Word).extractLsb' 12 20 → m = 9)) ∧
    (bench false 0).cp0.status.getLsbD 1 = false ∧ 0xC0000000 ≤ (0xC0000010 : Word).toNat ∧ (0xC0000010 : Word).toNat < 0xFF000000 ∧
    0xFFFF0000 ≤ (0xFFFFFFFF : Word).toNat := ⟨⟨nofun, by decide, by decide, by decide⟩, by decide, by decide, by decide, by decide⟩

theorem test_witness_BankImages : (0x03FFFFFF : Nat) < 0x04000000 ∧ ramBiu.mc0.getLsbD 20 = false := by decide

theorem test_witness_SilentLocations (watch : Bool) :
    (silentBench watch).target 0xFF001234 = .ok .silent ∧ (silentBench watch).dev.biu.mc4.getLsbD 27 = false ∧
    (silentBench watch).dev.biu.held = none ∧ (silentBench watch).dev.biu.turn ≠ .over ∧ (silentBench watch).dev.granted = false ∧
    (silentBench watch).dev.biu.mc4.getLsbD 24 = watch := by cases watch <;> decide

/-- A part of an instruction that ends well, as a truth value. -/
def isOk {α : Type} (r : Res α) : Bool :=
  match r with
  | .ok _ _ => true
  | _ => false

theorem isOk_spec {α : Type} {r : Res α} (h : isOk r = true) : ∃ a t, r = .ok a t := by
  cases r with
  | ok a t => exact ⟨a, t, rfl⟩
  | _ => cases h

/-- A read of the boot ROM and a read of Memory Configuration 4, a write of the boot ROM and of Interrupt Status 1, with the memory powered
down. -/
theorem test_witness_MemoryPowerDown :
    State.reset.dev.biu.held = none ∧ State.reset.dev.biu.powerDown = true ∧
    ((∃ w t, State.reset.busRead .core 0x1FC00000 0xF .dbe = .ok w t) ∧ State.reset.isRegister 0x1FC00000 = false) ∧
    ((∃ w t, State.reset.busRead .core 0x10C00010 0xF .dbe = .ok w t) ∧ State.reset.isRegister 0x10C00010 = true) ∧
    (∃ w t, State.reset.busWrite { pa := 0x1FC00000, data := 0, be := 0xF } = .ok w t) ∧
    ((∃ w t, State.reset.busWrite { pa := 0x10C00100, data := 0, be := 0xF } = .ok w t) ∧
      State.reset.target 0x10C00100 = .ok (.register 0x100)) :=
  ⟨rfl, rfl, ⟨isOk_spec (by decide), by decide⟩, ⟨isOk_spec (by decide), by decide⟩, isOk_spec (by decide), isOk_spec (by decide), by decide⟩

theorem test_witness_InterruptModule : 1 ≤ 1 ∧ 5 ≤ 5 ∧ (31 : Nat) < 32 ∧ ({ Intr.reset with st5 := 0x20000000, en6 := 0xFFFF } : Intr).highMasked ≠ 0 ∧
    Intr.reset.highMasked = 0 := by decide

theorem test_witness_PeriodicTimer :
    (let d := { Dev.reset true with timer := { Timer.reset with ctl := 0x10 } }
     d.timer.ctl.getLsbD 4 = true ∧ d.timer.ctl.getLsbD 5 = false ∧ d.timer.perCnt = 0) ∧
    ({ Timer.reset with perCnt := 0xFFFF } : Timer).perCnt ≠ 0 := by decide

theorem test_witness_StepKeepsInvariant : boot.Inv ∧ ∃ t, step boot = .next t :=
  ⟨⟨by decide, by decide, ⟨by decide, by decide, by decide, by decide, by decide⟩⟩, _, rfl⟩

/-- User code in a mapped page: `mfc0` there traps, `addiu` does not. -/
def userCode (w : Nat) : State :=
  State.withFetchWord
    { withEntry (cp0Bench 0x00000002 0 0 0)
        { vpn := 0x00001, pid := 0, pfn := 0x00001, n := true, d := false, v := true, g := true } with pc := 0x1000, npc := 0x1004 }
    32 w

theorem test_witness_UserModeKeepsCoprocessor0 :
    (userCode 0x40026000).agenda = [] ∧ StatusSettled (userCode 0x40026000) ∧ (userCode 0x40026000).cp0.status.getLsbD 1 = true ∧
    (userCode 0x40026000).cp0.status.getLsbD 28 = false ∧ got (step (userCode 0x40026000)) (·.cp0.exc) = some 11 ∧
    got (step (userCode 0x24028000)) (fun t => (t.cp0.status, t.pc)) = some (0x00000002, 0x1004) :=
  ⟨by decide, nofun, by decide, by decide, by decide, by decide⟩

/-! ## The modules -/

/-- R30: while a DMA transaction is in progress the core is idle. -/
theorem test_core_idle_during_dma :
    let s := { boot with dev := { boot.dev with dma := some ⟨.video, false⟩ } }
    s.coreStep = .next s := rfl

/-- R792: the press sets PWRCS where software has cleared it alone; R805: without PWROK VCCON is not set alone. -/
theorem test_onbutn_sets_pwrcs :
    let d := { Dev.reset true with power := { Power.reset with ctl := 0x1 } }
    bitOf (d.onbutnLevel true).power.ctl 1 = true ∧
    Power.written { Power.reset with ctl := 0, pwrok := false } 0x3 false = 0 := by decide

/-- R745: with PHAPOL = 1 the last bit stays on the line until the next character's first rising edge; DTIDLE is high here. -/
theorem test_magicbus_seamless :
    let m := { Mbus.reset with ctl1 := 0x421, on := true, shiftBusy := true, bits := 15, clk := true, txFull := true, txHold := 0x8000 }
    let e := Dev.mbusEdge { Dev.reset true with mbus := m }
    (e.mbus.shiftBusy, e.mbus.txFull, e.mbus.data, e.mbusEdge.mbus.data) = (true, false, false, true) := by decide

/-- R846, R854: before its first frame the module has received no subframe 1. -/
theorem test_sib_no_status_before_frame :
    let s := { Sib.reset with ctl := 0x5, pos := 127, shift := 0xFFFFFFFFFFFFFFFF }
    (Dev.sibFall { Dev.reset true with sib := s } true).sib.sf1stat = 0 := by decide

/-- R935: a low line longer than a baud period stays low; R938: PRXHOLD moves to RXHOLD with a UARTCLK, not before. -/
theorem test_uart_receive :
    Uart.sampled { Uart.reset with ctl1 := 0x100, stretch := 0 } false = false ∧
    (let c : UartChar := { data := 7, frameErr := false, parityErr := false, isBreak := false, overrun := false }
     let d := { Dev.reset true with clk := 0xA, uartA := { Uart.reset with on := true, ctl1 := 0x41, prx := some c } }
     (d.uartSettle false).uartA.rxFull = false ∧ (d.uartClock false true).uartA.rxHold = 7) := by decide

/-- R1000: LOAD is asserted after the last line of a frame that freezes; R1004: the baud clock stops when that pulse is over. -/
theorem test_video_freeze :
    let d := Dev.videoLineEnds { Dev.reset true with clk := 0x40000, video := { Video.reset with vc1 := 0x101 } }
    (d.video.load, d.video.frozen, d.videoClock.video.load, d.videoClock.video.shifting) = (true, true, false, false) := by decide

/-- R1002: with LOADDLY = 1 and VIDRATE = HORZVAL + 1 the line ends after the last of its outputs. -/
theorem test_video_shortest_line :
    let v := { Video.reset with vc1 := 0x00200001, vc2 := 0x00400000, pos := 1 }
    v.fall.map (fun w => (w.shifting, w.horz, w.pos.toNat, w.vidRate.toNat + 1)) = some (true, 0, 2, 2) := by decide

/-- R747: the half clock in which the last bit ends is not one of the four that the module stays on for. -/
theorem test_magicbus_shut_down :
    let m := { Mbus.reset with on := true, shiftBusy := true, bits := 15, clk := true }
    let d := { Dev.reset true with mbus := m }
    let e := fun n => (Dev.mbusHalf { d with mbus := { m with shiftBusy := false, closing := n } }).mbus.on
    (d.mbusHalf.mbus.shiftBusy, d.mbusHalf.mbus.closing, e 3, e 4) = (false, 1, true, false) := by decide

/-- R216, R242: a card that releases WAIT* after the count has reached 0 gets no Ack; released before, it gets one and the count stands. -/
theorem test_watch_dog_aborts_card :
    let b := { Biu.reset true with mc3 := 0x40, mc4 := 0x01000000, held := some .core, heeded := some false }
    let s := { State.reset with dev := { Dev.reset true with biu := b } }
    let low := { s.dev with io := { Io.reset with mioPin := 0x08800008 } }
    s.acknowledge (.cells (.cardMem false) 0 .ram) = .ok false s.endBus ∧
    (Dev.sysClock { low with biu := { b with watch := 5 } }).biu.watch = 4 ∧
    (Dev.sysClock { s.dev with biu := { b with watch := 5 } }).biu.watch = 5 := ⟨rfl, by decide, by decide⟩

/-- R258: with SHOWDINO the core's access of a function register selects CARDREG* on MIO[11]; DMA's does not. -/
theorem test_showdino :
    let b := { Biu.reset true with mc0 := 0x08000001 }
    b.strobes false .core (.register 0x100) 0xF false = 0x00000800 ∧ b.strobes false .dma (.register 0x100) 0xF false = 0 := by decide

/-- R241, R489: DREQ* low on MIO[27] has the bus granted, without ENSYSCLK the grant stays as it is; meanwhile refresh is interrupted. -/
theorem test_grant :
    let d := { Dev.reset true with io := { Io.reset with mioPin := 0 }, biu := { Biu.reset true with mc4 := 0x4000 } }
    let off := { d with power := { Power.reset with ensys := false } }
    (d.grantBus.granted, off.grantBus.granted) = (true, false) ∧
    (d.crystalEdge.biu.refreshes0, d.grantBus.crystalEdge.biu.refreshes0) = (1, 0) := by decide

/-- R258: the memory interface leaves power down too when software clears MEMPOWERDOWN, and DQMH and DQML go high. -/
theorem test_wake_by_write :
    (Biu.writeMc4 { Biu.reset true with mc4 := 0x10000, woken := false } 0).woken = true := by decide

/-- R540: a transfer whose module has been halted meanwhile does not move it. -/
theorem test_halted_module (f : Dev → Dev) : State.reset.dmaDone .mbus f = .ok () (State.reset.mapDev id) := rfl

/-- R574, R580, R582: with CETX = -1 the receiver ends half-frame A of a frame in which the transmitter does not run alone, which requests no
transmit transfer; where it runs, the half-frame waits for both. -/
theorem test_chi_first_frame :
    let c := { Chi.reset with ctl := 0x00000041, size := 0x3 }
    let d := Dev.chiHalf { Dev.reset true with chi := (c.rxBegins false).setRxEnd false true } false
    let e := Dev.chiHalf { Dev.reset true with chi := ({ c with txRun := true }.rxBegins false).setRxEnd false true } false
    (bitOf d.intr.st1 26, d.chi.rxReq, d.chi.txReq) = (true, true, false) ∧ bitOf e.intr.st1 26 = false := by decide

/-- R590: the first pulse of a sync master with negative polarity starts a frame; a slave's first sample does not. -/
theorem test_chi_first_pulse :
    (Chi.sampleFs { Chi.reset with ctl := 0x08000301 } false false).txSync = some 0 ∧
    (Chi.sampleFs { Chi.reset with ctl := 0x00000001 } false true).txSync = none := by decide

/-- R582: a transmit register that was written during its half-frame has been emptied at the end of it. -/
theorem test_chi_emptied :
    (Chi.txSlotEnds { Chi.reset with ctl := 0x3, txSlot := 0 }).txUsedA = true := by decide

/-- R125, R187, R195: the word in the cache is found through another image of the bank, and not where a buffered re-mapper write leads the address
elsewhere; a cached store changes it through the image, and leaves a word of ROM alone. -/
theorem test_cache_places :
    cacheBench.cachedWord 0x04002000 = some 5 ∧ (cacheBench.cacheStore 0x04002000 9 0xF true).cachedWord 0x2000 = some 9 ∧
    State.cachedWord { cacheBench with wb := [⟨0x10C00018, 0x0000200F, 0xF⟩, ⟨0x10C00000, 0x02012021, 0xF⟩] } 0x2000 = none ∧
    (romBench.cacheStore 0x11000040 9 0xF true).cachedWord 0x11000040 = some 5 := by decide

/-- R131, R195: with the re-mapper leading 0x2000 to a function register by writes that still stand in the buffer, a cached access of it stops. -/
theorem test_register_behind_buffer :
    let s : State := { memory false 7 0 with wb := [⟨0x10C00018, 0x0000200F, 0xF⟩, ⟨0x10C00020, 0x10C00000, 0xF⟩, ⟨0x10C00000, 0x02012021, 0xF⟩] }
    (s.isRegister 0x2000, s.registerCheck 0x2000 true 0xF) = (false, some .frCached) := by decide

/-- R704: an upper byte without periods sends nothing; the lower one, three periods of OFF, starts with the same baud clock. -/
theorem test_ir_no_periods :
    let (i, int) := Ir.baudClock { Ir.reset with ctl2 := 0x04020000, txHold := 0x8003, txFull := true } false
    (i.periods, i.onOff, i.lower, int, i.txFull) = (3, false, false, true, false) ∧
    (Ir.baudClock { Ir.reset with ctl2 := 0x04020000, txHold := 0x8080, txFull := true } false).1.out = false := by decide

/-- R128: a load that first drains an older store gives the bus up between the two transactions: DMA may have it, and the next step goes on. -/
theorem test_dma_between_transactions :
    let s : State := { memory false 7 0 with pending := .exec 0x8C820000, wb := [⟨0x3000, 1, 0xF⟩], agenda := [.coreBus, .core] }
    got (step s) (fun t => (t.wb.length, t.pending, t.reg 2, t.dev.busFree .dma)) = some (0, .exec 0x8C820000, 0, true) ∧
    (got (step s) step).bind (fun o => got o fun t => (t.pending, t.reg 2)) = some (.none, 7) := by decide

/-- R128: the words that later MIPS processors use for ll and sc are `lwc0` and `swc0`. -/
theorem test_no_load_linked : decode 0xC0820000 = .instr (.lwc0 4 2 0) ∧ decode 0xE0820000 = .instr (.swc0 4 2 0) := by decide

/-- R1002: the DF Counter counts LOAD pulses with DFMODE = 0 too. -/
theorem test_df_counter :
    let d := Dev.videoLine { Dev.reset true with video := { Video.reset with vc1 := 0x1, line := 5, dfCnt := 3 } }
    (d.video.dfCnt, d.video.df) = (2, false) := by decide

end Sys2Proof.Tests
end

section
/-!
SUPPORT and PROOFS. Masked writes, the reserved bits of coprocessor 0, and the invariant of the machine: every instruction, every step of the
core and every event keeps it (O56, O57, O58).
-/

namespace Sys2Proof.Machine

/-! ## Masked writes -/

/-- A masked write leaves the bits outside its mask as they are. -/
theorem maskedWrite_and_of_disjoint {mask r : Word} (hm : mask &&& r = 0) (old new : Word) :
    maskedWrite mask old new &&& r = old &&& r := by
  apply BitVec.eq_of_getLsbD_eq
  intro i hi
  have hb : (mask.getLsbD i && r.getLsbD i) = false := by rw [← BitVec.getLsbD_and, hm]; exact BitVec.getLsbD_zero
  simp only [maskedWrite, BitVec.getLsbD_and, BitVec.getLsbD_or, BitVec.getLsbD_not, hi, decide_true, Bool.true_and]
  revert hb
  cases mask.getLsbD i <;> cases r.getLsbD i <;> simp

/-- The push of the mode stack is a write of the six mode bits (R465). -/
theorem pushStatus_eq (st : Word) : pushStatus st = maskedWrite 0x3F st ((st &&& 0xF) <<< 2) := by
  have h : ((st &&& 0xF) <<< 2) &&& (0x3F : Word) = (st &&& 0xF) <<< 2 := by
    apply BitVec.eq_of_getLsbD_eq
    intro i hi
    interval_cases i <;> simp
  unfold pushStatus maskedWrite
  rw [h]
  rfl

/-- The pop of the mode stack is a write of its four low bits (R327). -/
theorem popStatus_eq (st : Word) : popStatus st = maskedWrite 0xF st (st >>> 2) := rfl

/-! ## The reserved bits of coprocessor 0 -/

/-- A write of Status that spares the reserved bits keeps the invariant. -/
theorem Cp0.Inv.of_status {c : Cp0} (h : c.Inv) {st : Word} (hs : st &&& 0x0DA000C0 = 0) : Cp0.Inv { c with status := st } :=
  ⟨h.index, h.entryLo, h.context, h.entryHi, hs⟩

theorem Cp0.Inv.reset : Cp0.reset.Inv := ⟨by decide, by decide, by decide, by decide, by decide⟩

theorem Cp0.Inv.pushStatus {c : Cp0} (h : c.Inv) : Machine.pushStatus c.status &&& 0x0DA000C0 = 0 := by
  rw [pushStatus_eq, maskedWrite_and_of_disjoint (by decide), h.status]

theorem Cp0.Inv.popStatus {c : Cp0} (h : c.Inv) : Machine.popStatus c.status &&& 0x0DA000C0 = 0 := by
  rw [popStatus_eq, maskedWrite_and_of_disjoint (by decide), h.status]

theorem Cp0.Inv.nmiStatus {c : Cp0} (h : c.Inv) (o : Word) : Machine.nmiStatus o c.status &&& 0x0DA000C0 = 0 := by
  rw [Machine.nmiStatus, BitVec.and_assoc, BitVec.and_comm (~~~_), ← BitVec.and_assoc, maskedWrite_and_of_disjoint (by decide), h.status]
  rfl

/-- `mtc0` writes no reserved bit (R326). -/
theorem Cp0.Inv.write {c d : Cp0} (h : c.Inv) {rd : Reg} {v : Word} {t : Trace} (hw : c.write rd v = some (d, t)) : d.Inv := by
  unfold Cp0.write at hw
  split at hw <;> cases hw
  case h_1 => exact { h with index := (maskedWrite_and_of_disjoint (by decide) _ _).trans h.index }
  case h_3 => exact { h with entryLo := (maskedWrite_and_of_disjoint (by decide) _ _).trans h.entryLo }
  case h_4 => exact { h with context := (maskedWrite_and_of_disjoint (by decide) _ _).trans h.context }
  case h_6 => exact { h with entryHi := (maskedWrite_and_of_disjoint (by decide) _ _).trans h.entryHi }
  case h_7 => exact { h with status := (maskedWrite_and_of_disjoint (by decide) _ _).trans h.status }
  all_goals exact { h with }

/-- An exception sets no reserved bit (R465, R466). -/
theorem Cp0.Inv.raise {c : Cp0} (h : c.Inv) (e : Exc) (pc : Word) (ds : Bool) (ce : BitVec 2) : (c.raise e pc ds ce).Inv where
  index := h.index
  entryLo := h.entryLo
  context := by
    unfold Cp0.raise
    cases e.tlbVa with
    | none => exact h.context
    | some va => exact (maskedWrite_and_of_disjoint (by decide) _ _).trans h.context
  entryHi := by
    simp only [Cp0.raise, Exc.entryHi]
    cases e.tlbVa with
    | none => exact h.entryHi
    | some va => exact (maskedWrite_and_of_disjoint (by decide) _ _).trans h.entryHi
  status := h.pushStatus

/-- The words of a TLB entry have no reserved bit (R323). -/
theorem TlbEntry.hi_reserved (e : TlbEntry) : e.hi &&& 0x0000003F = 0 := by
  apply BitVec.eq_of_getLsbD_eq
  intro i hi
  simp only [TlbEntry.hi, BitVec.getLsbD_and, BitVec.getLsbD_append]
  interval_cases i <;> simp

/-- A truth value placed at bit `i` is that bit and no other. -/
theorem getLsbD_boolAt (b : Bool) {i j : Nat} (hj : j < 32) : (boolAt b i).getLsbD j = (b && decide (j = i)) := by
  cases b
  · simp [boolAt]
  · simp only [boolAt, if_true, bitMask, BitVec.getLsbD_shiftLeft, BitVec.getLsbD_one, Bool.true_and]
    rw [Bool.eq_iff_iff]
    simp
    omega

/-- EntryLo of an entry, field by field (R38). -/
theorem TlbEntry.lo_eq_append (e : TlbEntry) :
    e.lo = e.pfn ++ BitVec.ofBool e.n ++ BitVec.ofBool e.d ++ BitVec.ofBool e.v ++ BitVec.ofBool e.g ++ 0#8 := by
  apply BitVec.eq_of_getLsbD_eq
  intro i hi
  simp only [TlbEntry.lo, placed, BitVec.getLsbD_or, getLsbD_boolAt _ hi, BitVec.getLsbD_append, BitVec.getLsbD_shiftLeft]
  interval_cases i <;> simp

theorem TlbEntry.lo_reserved (e : TlbEntry) : e.lo &&& 0x000000FF = 0 := by
  apply BitVec.eq_of_getLsbD_eq
  intro i hi
  simp only [TlbEntry.lo_eq_append, BitVec.getLsbD_and, BitVec.getLsbD_append]
  interval_cases i <;> simp

/-- A probe sets no reserved bit of Index (R322). -/
theorem State.probe_reserved (s : State) : s.probe &&& 0x7FFFE0FF = 0 := by
  have h : ∀ v : BitVec 5, placed v 8 &&& 0x7FFFE0FF = 0 ∧ (0x80000000 ||| placed v 8) &&& 0x7FFFE0FF = 0 := by decide
  unfold State.probe
  dsimp only
  split
  · exact (h _).1
  · exact (h _).2

/-! ## The invariant of the machine -/

/-- The invariant is a matter of memory, the write buffer and coprocessor 0. -/
theorem State.Inv.congr {s t : State} (h : s.Inv) (hm : t.mem = s.mem) (hw : t.wb = s.wb) (hc : t.cp0 = s.cp0) : t.Inv :=
  ⟨hm ▸ h.mem, hw ▸ h.wb, hc ▸ h.cp0⟩

/-- Another coprocessor 0 with its invariant. -/
theorem State.Inv.of_cp0 {s t : State} (h : s.Inv) (hm : t.mem = s.mem) (hw : t.wb = s.wb) (hc : t.cp0.Inv) : t.Inv :=
  ⟨hm ▸ h.mem, hw ▸ h.wb, hc⟩

theorem State.Inv.raise {s : State} (h : s.Inv) (e : Exc) : (s.raise e).Inv := h.of_cp0 rfl rfl (h.cp0.raise e _ _ _)

theorem State.Inv.takeNmi {s : State} (h : s.Inv) : s.takeNmi.Inv :=
  h.of_cp0 rfl rfl ⟨h.cp0.index, h.cp0.entryLo, h.cp0.context, h.cp0.entryHi, h.cp0.nmiStatus _⟩

/-- What transactions and writes into the buffer keep. -/
theorem Transactions.inv {s t : State} (h : Transactions s t) (hs : s.Inv) : t.Inv := ⟨h.mem hs.mem, h.wb hs.wb, h.cp0 ▸ hs.cp0⟩

theorem Res.All.inv {α : Type} {s : State} {r : Res α} (h : r.All (Transactions s)) (hs : s.Inv) : r.All State.Inv :=
  h.mono fun _ ht => ht.inv hs

/-- A next state, where the outcome is one, has the invariant. -/
def NextInv (o : Host.Outcome State Fault Refusal) : Prop := ∀ t, o = .next t → t.Inv

theorem NextInv.next {t : State} (h : t.Inv) : NextInv (.next t) := fun _ e => by cases e; exact h

theorem NextInv.refused (r : Refusal) : NextInv (.refused r) := fun _ e => by cases e

/-- An exception of a part of an instruction is taken (R465). -/
theorem NextInv.outcome {r : Res Unit} (h : r.All State.Inv) : NextInv r.outcome := by
  cases r with
  | ok a t => exact .next h
  | exc e t => exact .next (State.Inv.raise h e)
  | wait t => exact .next h
  | refused r => exact .refused r

/-! ## The instructions keep the invariant -/

theorem State.Inv.alu {s : State} (h : s.Inv) (rd : Reg) (v : Word) : NextInv (s.alu rd v) := .next (h.congr rfl rfl rfl)

theorem State.Inv.aluTrap {s : State} (h : s.Inv) (rd : Reg) (overflow : Bool) (v : Word) : NextInv (s.aluTrap rd overflow v) := by
  unfold State.aluTrap
  split
  · exact .next (h.raise .ov)
  · exact h.alu rd v

/-- Free values for the registers of an earlier `mfhi` or `mflo` (R1081). -/
theorem State.Inv.spoil {s t : State} (h : s.Inv) (ts : List Trace) (ht : s.spoil ts = .ok t) : t.Inv := by
  induction ts generalizing s with
  | nil => cases ht; exact h
  | cons x ts ih =>
    unfold State.spoil at ht
    split at ht
    case h_1 => contradiction
    case h_2 he =>
      cases he
      split at ht
      · cases ht
      · exact ih (s := State.setReg s _ _) (h.congr rfl rfl rfl) ht
    case h_3 he => cases he; exact ih h ht

theorem State.Inv.writeHiLo {s : State} (h : s.Inv) {k : State → State} (hk : ∀ t : State, t.Inv → (k t).Inv) : NextInv (s.writeHiLo k) := by
  unfold State.writeHiLo
  split
  case h_1 t ht => exact .next ((hk t (h.spoil _ ht)).congr rfl rfl rfl)
  case h_2 => exact .refused _

theorem State.Inv.writeAcc {s : State} (h : s.Inv) (rd : Reg) (v : BitVec 64) : NextInv (s.writeAcc rd v) :=
  h.writeHiLo fun _ ht => ht.congr rfl rfl rfl

theorem State.Inv.writeDiv {s : State} (h : s.Inv) (zero : Bool) (q r : Word) : NextInv (s.writeDiv zero q r) :=
  h.writeHiLo fun _ ht => ht.congr rfl rfl rfl

theorem State.Inv.transfer {s k : State} (h : k.Inv) : NextInv (s.transfer k) := by
  unfold State.transfer
  split
  · exact .refused _
  · exact .next h

theorem State.Inv.branch {s : State} (h : s.Inv) (taken : Bool) (imm : BitVec 16) : NextInv (s.branch taken imm) :=
  .transfer (by cases taken <;> exact h.congr rfl rfl rfl)

theorem State.Inv.branchLikely {s : State} (h : s.Inv) (taken : Bool) (imm : BitVec 16) : NextInv (s.branchLikely taken imm) :=
  .transfer (by cases taken <;> exact h.congr rfl rfl rfl)

theorem State.Inv.branchLink {s : State} (h : s.Inv) (rs : Reg) (taken : Bool) (imm : BitVec 16) : NextInv (s.branchLink rs taken imm) := by
  unfold State.branchLink
  split
  · exact .refused _
  · exact .transfer (by cases taken <;> exact h.congr rfl rfl rfl)

theorem State.Inv.branchLinkLikely {s : State} (h : s.Inv) (rs : Reg) (taken : Bool) (imm : BitVec 16) :
    NextInv (s.branchLinkLikely rs taken imm) := by
  unfold State.branchLinkLikely
  split
  · exact .refused _
  · exact .transfer (by cases taken <;> exact h.congr rfl rfl rfl)

theorem State.Inv.jalr {s : State} (h : s.Inv) (rs rd : Reg) : NextInv (execJalr rs rd s) := by
  unfold execJalr
  split
  · exact .refused _
  · exact .transfer (h.congr rfl rfl rfl)

theorem State.Inv.load {s : State} (h : s.Inv) (rt : Reg) (va : Word) (size : Nat) (be : BitVec 4) (kind : LoadKind) (f : Word → Word) :
    NextInv (s.load rt va size be kind f) :=
  .outcome (((s.loadWord_frame va size be).inv h).bind (fun _ _ ht => ht.congr rfl rfl rfl) fun _ ht => ht)

theorem State.Inv.store {s : State} (h : s.Inv) (va : Word) (size : Nat) (data : Word) (be : BitVec 4) : NextInv (s.store va size data be) :=
  .outcome (((s.storeWord_frame va size data be).inv h).bind (fun _ _ ht => ht.congr rfl rfl rfl) fun _ ht => ht)

theorem State.Inv.sync {s : State} (h : s.Inv) : NextInv (execSync s) :=
  .outcome ((s.drainAll_frame.1.inv h).bind (fun _ _ ht => ht.congr rfl rfl rfl) fun _ ht => ht)

theorem State.Inv.withCop0 {s : State} (h : s.Inv) {k : Host.Outcome State Fault Refusal} (hk : NextInv k) : NextInv (s.withCop0 k) := by
  unfold State.withCop0
  split
  · exact hk
  · exact .next (h.raise _)

theorem State.Inv.withCop {s : State} (h : s.Inv) (z : Nat) {k : Host.Outcome State Fault Refusal} (hk : NextInv k) :
    NextInv (s.withCop z k) := by
  unfold State.withCop
  split
  · exact hk
  · exact .next (h.raise _)

theorem State.Inv.mfc0 {s : State} (h : s.Inv) (rt rd : Reg) : NextInv (execMfc0 rt rd s) := by
  refine h.withCop0 ?_
  split
  · exact .next (h.congr rfl rfl rfl)
  · exact .refused _

theorem State.Inv.mtc0 {s : State} (h : s.Inv) (rt rd : Reg) : NextInv (execMtc0 rt rd s) := by
  refine h.withCop0 ?_
  split
  case h_1 c t hw => exact .next (h.of_cp0 rfl rfl (h.cp0.write hw))
  case h_2 => exact .refused _

theorem State.Inv.tlbp {s : State} (h : s.Inv) : NextInv (execTlbp s) :=
  h.withCop0 (.next (h.of_cp0 rfl rfl { h.cp0 with index := s.probe_reserved }))

theorem State.Inv.tlbr {s : State} (h : s.Inv) : NextInv (execTlbr s) :=
  h.withCop0 (.next (h.of_cp0 rfl rfl { h.cp0 with entryHi := TlbEntry.hi_reserved _, entryLo := TlbEntry.lo_reserved _ }))

theorem State.Inv.writeTlb {s : State} (h : s.Inv) (i : BitVec 5) : (s.writeTlb i).Inv := h.congr rfl rfl rfl

theorem State.Inv.rfe {s : State} (h : s.Inv) : NextInv (execRfe s) := h.withCop0 (.next (h.of_cp0 rfl rfl (h.cp0.of_status h.cp0.popStatus)))

/-- Every instruction keeps the invariant, by the shared operation that it is. -/
theorem State.Inv.exec {s : State} (h : s.Inv) : ∀ i : Instr, NextInv (Machine.exec i s)
  | .add .. | .sub .. | .addi .. => h.aluTrap _ _ _
  | .addu .. | .subu .. | .and .. | .or .. | .xor .. | .nor .. | .slt .. | .sltu .. | .addiu .. | .slti .. | .sltiu .. | .andi .. | .ori ..
  | .xori .. | .lui .. | .sll .. | .srl .. | .sra .. | .sllv .. | .srlv .. | .srav .. => h.alu _ _
  | .mult .. | .multu .. | .madd .. | .maddu .. => h.writeAcc _ _
  | .div .. | .divu .. => h.writeDiv _ _ _
  | .mthi _ | .mtlo _ => h.writeHiLo fun _ ht => ht.congr rfl rfl rfl
  | .mfhi _ | .mflo _ => .next (h.congr rfl rfl rfl)
  | .j _ | .jal _ | .jr _ => .transfer (h.congr rfl rfl rfl)
  | .jalr .. => h.jalr _ _
  | .beq .. | .bne .. | .blez .. | .bgtz .. | .bltz .. | .bgez .. => h.branch _ _
  | .beql .. | .bnel .. | .blezl .. | .bgtzl .. | .bltzl .. | .bgezl .. => h.branchLikely _ _
  | .bltzal .. | .bgezal .. => h.branchLink _ _ _
  | .bltzall .. | .bgezall .. => h.branchLinkLikely _ _ _
  | .lb .. | .lbu .. | .lh .. | .lhu .. | .lw .. | .lwl .. | .lwr .. => h.load _ _ _ _ _ _
  | .sb .. | .sh .. | .sw .. | .swl .. | .swr .. => h.store _ _ _ _
  | .syscall _ | .brk _ => .next (h.raise _)
  | .sync => h.sync
  | .mfc0 .. => h.mfc0 _ _
  | .mtc0 .. => h.mtc0 _ _
  | .tlbp => h.tlbp
  | .tlbr => h.tlbr
  | .tlbwi | .tlbwr => h.withCop0 (.next (h.writeTlb _))
  | .rfe => h.rfe
  | .deret => h.withCop0 (.refused _)
  | .bc3f _ | .bc3t _ => h.withCop _ (h.branch _ _)
  | .mfc1 .. | .cfc1 .. | .mtc1 .. | .ctc1 .. | .cop1 _ | .bc1f _ | .bc1t _ | .bc1fl _ | .bc1tl _
  | .mfc2 .. | .cfc2 .. | .mtc2 .. | .ctc2 .. | .cop2 _ | .bc2f _ | .bc2t _ | .bc2fl _ | .bc2tl _
  | .mfc3 .. | .cfc3 .. | .mtc3 .. | .ctc3 .. | .cop3 _ | .bc3fl _ | .bc3tl _ => h.withCop _ (.refused _)
  | .cache .. | .sdbbp _ | .lwc0 .. | .swc0 .. | .lwc1 .. | .swc1 .. | .lwc2 .. | .swc2 .. | .lwc3 .. | .swc3 .. => .refused _

/-! ## The core keeps the invariant -/

theorem State.Inv.copWord {s : State} (h : s.Inv) (w : Word) {k : Host.Outcome State Fault Refusal} (hk : NextInv k) :
    NextInv (s.copWord w k) := by
  unfold State.copWord
  split
  · exact h.withCop0 hk
  · exact h.withCop 1 hk
  · exact h.withCop 2 hk
  · exact h.withCop 3 hk
  · exact hk

theorem State.Inv.trapWord {s : State} (h : s.Inv) (w : Word) (d : Decoded) : NextInv (s.trapWord w d) := by
  cases d with
  | instr i => exact h.exec i
  | reserved => exact h.copWord w (.next (h.raise .ri))
  | unusedField => exact h.copWord w (.refused _)
  | copUndescribed => exact h.copWord w (.refused _)

theorem State.Inv.execWord {s : State} (h : s.Inv) (w : Word) : NextInv (s.execWord w) := by
  have hp : State.Inv { s with pending := .exec w } := h.congr rfl rfl rfl
  unfold State.execWord
  dsimp only
  split
  · refine State.Inv.exec ?_ _
    exact hp.congr rfl rfl rfl
  · exact hp.trapWord w _

theorem NextInv.checkWrap (s : State) {o : Host.Outcome State Fault Refusal} (h : NextInv o) : NextInv (s.checkWrap o) := by
  unfold State.checkWrap
  split
  · split
    · exact .refused _
    · exact h
  · exact h

theorem State.Inv.fetchExec {s : State} (h : s.Inv) : NextInv s.fetchExec := by
  unfold State.fetchExec
  split
  · exact (h.execWord _).checkWrap s
  · have hf : s.fetch.All State.Inv := s.fetch_frame.inv h
    split <;> rename_i he <;> rw [he] at hf
    · exact (State.Inv.execWord hf _).checkWrap s
    · exact .next (State.Inv.raise hf _)
    · exact .next (State.Inv.congr hf rfl rfl rfl)
    · exact .refused _

theorem State.Inv.coreStep {s : State} (h : s.Inv) : NextInv s.coreStep := by
  unfold State.coreStep
  split
  · exact .next h
  · split
    · exact h.fetchExec
    · split
      · exact .next h.takeNmi
      · split
        · exact .next (h.raise .int)
        · exact h.fetchExec

theorem State.Inv.coreTurn {s : State} (h : s.Inv) : NextInv s.coreTurn := by
  have hc : NextInv (s.withTurn .one).coreStep := State.Inv.coreStep (h.congr rfl rfl rfl)
  unfold State.coreTurn
  split
  case h_1 t ht => exact .next ((hc t ht).congr rfl rfl rfl)
  case h_2 => exact hc

/-! ## The other agents keep the invariant -/

/-- A reset of the core leaves memory alone (R1061). -/
theorem State.Inv.coreReset {s : State} (h : s.Inv) : s.coreReset.Inv := ⟨h.mem, Nat.zero_le 4, .reset⟩

theorem State.Inv.masterWrite {s : State} (h : s.Inv) (pa data : Word) (be : BitVec 4) : (s.masterWrite pa data be).Inv := by
  unfold State.masterWrite
  split
  · dsimp only
    split
    · exact ⟨s.storeCells_wf _ _ _ h.mem, h.wb, h.cp0⟩
    · exact h
  · exact h

theorem State.Inv.devEvent {s : State} (h : s.Inv) (f : Dev → Dev) : (s.devEvent f).All State.Inv := h.congr rfl rfl rfl

theorem State.Inv.clocked {s : State} (h : s.Inv) (f : Dev → Dev) : (s.clocked f).All State.Inv := by
  unfold State.clocked
  split
  · exact h.devEvent f
  · exact h

theorem State.Inv.event {s : State} (h : s.Inv) (e : Event) : (s.event e).All State.Inv := by
  cases e with
  | core | coreBus => exact h
  | drain =>
    simp only [State.event]
    split
    · exact s.drainOne_transactions.inv h
    · exact h
  | dmaGrant =>
    simp only [State.event]
    split
    · exact s.dmaGrant_frame.inv h
    · exact h
  | cpuReset => exact h.coreReset.congr rfl rfl rfl
  | powerOnReset =>
    have hd : State.Inv { s with dev := s.dev.powerOnReset s.board.testAiu } := h.congr rfl rfl rfl
    exact hd.coreReset.congr rfl rfl rfl
  | masterWrite pa data be => exact h.masterWrite pa data be
  | c32k | coreStops | enSysclk | setPin | debounceIo | debounceOnbutn => exact h.devEvent _
  | timerClk | irClk | sysClk | vidClk | uartClk | spiClk | mbusClk | sibMclk | chiClk | sibClip => exact h.clocked _

theorem NextInv.eventOutcome {r : Res Unit} (h : r.All State.Inv) : NextInv r.eventOutcome := by
  cases r with
  | ok a t => exact .next (State.Inv.congr h rfl rfl rfl)
  | exc e t => exact .refused _
  | wait t => exact .next (State.Inv.congr h rfl rfl rfl)
  | refused r => exact .refused r

theorem State.Inv.step {s : State} (h : s.Inv) : NextInv (Machine.step s) := by
  have ha : ∀ es, State.Inv { s with agenda := es } := fun es => h.congr rfl rfl rfl
  unfold Machine.step State.stepOf
  split
  · exact h.coreStep
  · exact (ha _).coreStep
  · exact (ha _).coreTurn
  · exact .eventOutcome ((ha _).event _)

/-- Settles O58: a step is a core step or an event, and each of the shared operations that they are made of keeps the invariant. -/
theorem stepKeepsInvariant : Obligations.StepKeepsInvariant := fun _ t h ht => h.step t ht

/-- Settles O57. -/
theorem resetInvariant : Obligations.ResetInvariant := ⟨State.reset_mem_wf, Nat.zero_le 4, .reset⟩

/-- Settles O56: the reset state, field by field. -/
theorem resetState : Obligations.ResetState :=
  ⟨rfl, rfl, rfl, rfl, rfl, rfl, rfl, rfl, rfl, rfl, rfl, rfl, rfl, rfl, rfl, rfl, rfl, rfl, rfl⟩

end Sys2Proof.Machine
end

section
/-!
SUPPORT and PROOFS. The bytes of shifted words, and what the five stores put into the write buffer (O29).
-/

namespace Sys2Proof.Machine

/-! ## The bytes of shifted and masked words -/

theorem byteOf_shiftRight (x : Word) (k n : Nat) : byteOf (x >>> (8 * k)) n = byteOf x (n + k) := by
  apply BitVec.eq_of_getLsbD_eq
  intro i hi
  have h : 8 * k + (8 * n + i) = 8 * (n + k) + i := by omega
  simp only [byteOf, BitVec.getLsbD_extractLsb', BitVec.getLsbD_ushiftRight, h]

theorem byteOf_shiftLeft (x : Word) {k n : Nat} (hk : k ≤ n) (hn : n < 4) : byteOf (x <<< (8 * k)) n = byteOf x (n - k) := by
  apply BitVec.eq_of_getLsbD_eq
  intro i hi
  have h1 : 8 * n + i < 32 := by omega
  have h2 : ¬ 8 * n + i < 8 * k := by omega
  have h3 : 8 * n + i - 8 * k = 8 * (n - k) + i := by omega
  simp only [byteOf, BitVec.getLsbD_extractLsb', BitVec.getLsbD_shiftLeft, h1, h2, h3, decide_true, decide_false, Bool.not_false, Bool.true_and]

theorem byteOf_and_byte (x : Word) : byteOf (x &&& 0xFF) 0 = byteOf x 0 := by
  apply BitVec.eq_of_getLsbD_eq
  intro i hi
  simp only [byteOf, BitVec.getLsbD_extractLsb', BitVec.getLsbD_and]
  interval_cases i <;> simp

theorem byteOf_and_half (x : Word) {n : Nat} (hn : n < 2) : byteOf (x &&& 0xFFFF) n = byteOf x n := by
  apply BitVec.eq_of_getLsbD_eq
  intro i hi
  simp only [byteOf, BitVec.getLsbD_extractLsb', BitVec.getLsbD_and]
  interval_cases n <;> interval_cases i <;> simp

/-! ## The lanes of an entry -/

/-- The lane of the byte at offset `j` of a word (R102). -/
def laneAt (big : Bool) (j : Nat) : Nat := if big then 3 - j else j

theorem laneAt_lt (big : Bool) {j : Nat} (hj : j < 4) : laneAt big j < 4 := by
  unfold laneAt
  split <;> omega

theorem WbEntry.byteAt_eq (e : WbEntry) (big : Bool) (j : Nat) :
    e.byteAt big j = if e.be.getLsbD (laneAt big j) then some (byteOf e.data (laneAt big j)) else none := rfl

theorem byteEnable_lane : ∀ l < 4, ∀ m < 4, (byteEnable l).getLsbD m = decide (m = l) := by decide

theorem halfEnable_lane : ∀ l < 3, ∀ m < 4, (halfEnable l).getLsbD m = decide (m = l ∨ m = l + 1) := by decide

theorem leftEnable_lane : ∀ k < 4, ∀ m < 4, (leftEnable k).getLsbD m = decide (m + k < 4) := by decide

theorem rightEnable_lane : ∀ k < 4, ∀ m < 4, (rightEnable k).getLsbD m = decide (k ≤ m) := by decide

/-! ## The bytes that the five stores put into their entry -/

section
variable (p x va : Word) (big : Bool) {j : Nat} (hj : j < 4)
include hj

/-- `sb` stores the low byte at its address (R427). -/
theorem byteAt_byte :
    WbEntry.byteAt { pa := p, data := (x &&& 0xFF) <<< (8 * byteLane big va), be := byteEnable (byteLane big va) } big j =
      if j = va.toNat % 4 then some (byteOf x 0) else none := by
  have ho : va.toNat % 4 < 4 := Nat.mod_lt _ (by decide)
  have hl : byteLane big va = laneAt big (va.toNat % 4) := rfl
  have hm := laneAt_lt big hj
  have he : laneAt big j = laneAt big (va.toNat % 4) ↔ j = va.toNat % 4 := by unfold laneAt; split <;> omega
  rw [WbEntry.byteAt_eq, hl]
  dsimp only
  simp only [byteEnable_lane _ (laneAt_lt big ho) _ hm, he, decide_eq_true_eq]
  split
  case isTrue h => rw [← h, byteOf_shiftLeft _ (Nat.le_refl _) hm, Nat.sub_self, byteOf_and_byte]
  case isFalse => rfl

/-- `sh` stores the two low bytes at its address and the one after it, in the byte order (R428). -/
theorem byteAt_half (hs : va.toNat % 2 = 0) :
    WbEntry.byteAt { pa := p, data := (x &&& 0xFFFF) <<< (8 * halfLane big va), be := halfEnable (halfLane big va) } big j =
      if j = va.toNat % 4 then some (byteOf x (if big then 1 else 0))
      else if j = va.toNat % 4 + 1 then some (byteOf x (if big then 0 else 1)) else none := by
  have hl : halfLane big va = if big then 2 - va.toNat % 4 else va.toNat % 4 := by unfold halfLane; split <;> omega
  have hl3 : halfLane big va < 3 := by rw [hl]; split <;> omega
  have hm := laneAt_lt big hj
  have hb : ∀ n < 2, laneAt big j = halfLane big va + n →
      byteOf ((x &&& 0xFFFF) <<< (8 * halfLane big va)) (laneAt big j) = byteOf x n := fun n hn h => by
    rw [byteOf_shiftLeft _ (by omega) hm, byteOf_and_half _ (by omega)]
    congr 1
    omega
  rw [WbEntry.byteAt_eq]
  dsimp only
  simp only [halfEnable_lane _ hl3 _ hm, decide_eq_true_eq]
  by_cases h0 : j = va.toNat % 4
  · have h : laneAt big j = halfLane big va + (if big then 1 else 0) := by rw [hl]; unfold laneAt; cases big <;> simp <;> omega
    rw [if_pos (by rw [h]; cases big <;> simp), if_pos h0, hb _ (by cases big <;> simp) h]
  · by_cases h1 : j = va.toNat % 4 + 1
    · have h : laneAt big j = halfLane big va + (if big then 0 else 1) := by rw [hl]; unfold laneAt; cases big <;> simp <;> omega
      rw [if_pos (by rw [h]; cases big <;> simp), if_neg h0, if_pos h1, hb _ (by cases big <;> simp) h]
    · have h : ¬ (laneAt big j = halfLane big va ∨ laneAt big j = halfLane big va + 1) := by
        rw [hl]; unfold laneAt; cases big <;> simp <;> omega
      rw [if_neg h, if_neg h0, if_neg h1]

/-- `sw` stores the whole word (R429). -/
theorem byteAt_word : WbEntry.byteAt { pa := p, data := x, be := 0xF } big j = some (byteOf x (if big then 3 - j else j)) := by
  have h : ∀ m < 4, (0xF : BitVec 4).getLsbD m = true := by decide
  rw [WbEntry.byteAt_eq]
  exact if_pos (h _ (laneAt_lt big hj))

/-- `swl` stores the high bytes of the register from its address down to the low end of the word (R432). -/
theorem byteAt_left :
    WbEntry.byteAt { pa := p, data := x >>> (8 * leftShift big va), be := leftEnable (leftShift big va) } big j =
      if big then (if va.toNat % 4 ≤ j then some (byteOf x (3 - (j - va.toNat % 4))) else none)
      else (if j ≤ va.toNat % 4 then some (byteOf x (3 - (va.toNat % 4 - j))) else none) := by
  have hk : leftShift big va < 4 := by unfold leftShift; split <;> omega
  rw [WbEntry.byteAt_eq]
  dsimp only
  simp only [leftEnable_lane _ hk _ (laneAt_lt big hj), byteOf_shiftRight, decide_eq_true_eq]
  cases big <;> simp only [laneAt, leftShift, Bool.false_eq_true, if_false, if_true]
  · have he : j + (3 - va.toNat % 4) < 4 ↔ j ≤ va.toNat % 4 := by omega
    simp only [he]
    split
    · have hn : j + (3 - va.toNat % 4) = 3 - (va.toNat % 4 - j) := by omega
      rw [hn]
    · rfl
  · have he : 3 - j + va.toNat % 4 < 4 ↔ va.toNat % 4 ≤ j := by omega
    simp only [he]
    split
    · have hn : 3 - j + va.toNat % 4 = 3 - (j - va.toNat % 4) := by omega
      rw [hn]
    · rfl

/-- `swr` stores the low bytes of the register from its address up to the high end of the word (R433). -/
theorem byteAt_right :
    WbEntry.byteAt { pa := p, data := x <<< (8 * rightShift big va), be := rightEnable (rightShift big va) } big j =
      if big then (if j ≤ va.toNat % 4 then some (byteOf x (va.toNat % 4 - j)) else none)
      else (if va.toNat % 4 ≤ j then some (byteOf x (j - va.toNat % 4)) else none) := by
  have hk : rightShift big va < 4 := by unfold rightShift; split <;> omega
  have hb (h : rightShift big va ≤ laneAt big j) := byteOf_shiftLeft x h (laneAt_lt big hj)
  rw [WbEntry.byteAt_eq]
  dsimp only
  simp only [rightEnable_lane _ hk _ (laneAt_lt big hj), decide_eq_true_eq]
  cases big <;> simp only [laneAt, rightShift, Bool.false_eq_true, if_false, if_true] at hb ⊢
  · split
    case isTrue h => rw [hb h]
    case isFalse => rfl
  · have he : 3 - va.toNat % 4 ≤ 3 - j ↔ j ≤ va.toNat % 4 := by omega
    simp only [he] at hb ⊢
    split
    case isTrue h =>
      have hn : 3 - j - (3 - va.toNat % 4) = va.toNat % 4 - j := by omega
      rw [hb h, hn]
    case isFalse => rfl

end

/-! ## A store enters the write buffer -/

/-- A store that may enter the write buffer completes once there is space, and changes nothing else (R120). -/
theorem Buffers.of_store {i : Instr} {s u : State} {va pa data : Word} {cached : Bool} {be : BitVec 4} {size : Nat} {f : Nat → Option Byte}
    (hu : s.makeRoom = .ok () u) (hi : exec i s = s.store va size data be) (hs : va.toNat % size = 0) (hc : StoresCells s va pa cached be)
    (hf : ∀ j < 4, WbEntry.byteAt { pa := wordAddr pa, data := data, be := be } s.board.bigEndian j = f j) : Buffers i s u pa cached f := by
  have ht : Transactions s u := by
    have h := s.makeRoom_frame.1
    rw [hu] at h
    exact h
  have hk : Keeps u { State.retire ((u.cacheStore (wordAddr pa) data be cached).append ⟨wordAddr pa, data, be⟩) .plain with
      wb := u.wb, dcache := u.dcache } := by
    constructor <;> simp
  refine ⟨_, ⟨wordAddr pa, data, be⟩, hi.trans (State.store_cells hc hs data hu), by simp, rfl, hf, rfl, fun r => ?_, ⟨?_, ?_⟩, hk, ?_, ?_, ?_⟩
  · simp [ht.toSameCore.reg]
  · simp [ht.hi]
  · simp [ht.lo]
  · simp [ht.cp0]
  · simp [ht.tlb]
  · simp [Advances, ht.npc]

/-- The five stores put their bytes into the write buffer of the state in which there is space (R427 to R429, R432, R433). -/
theorem StoreBytes.of_makeRoom {s u : State} (hu : s.makeRoom = .ok () u) (rs rt : Reg) (imm : BitVec 16) (pa : Word) (cached : Bool) :
    StoreBytes s u rs rt imm pa cached :=
  ⟨fun hc => .of_store hu rfl (Nat.mod_one _) hc fun _ hj => byteAt_byte _ _ _ _ hj,
    fun hc hs => .of_store hu rfl hs hc fun _ hj => byteAt_half _ _ _ _ hj hs,
    fun hc hs => .of_store hu rfl hs hc fun _ hj => byteAt_word _ _ _ hj,
    fun hc => .of_store hu rfl (Nat.mod_one _) hc fun _ hj => byteAt_left _ _ _ _ hj,
    fun hc => .of_store hu rfl (Nat.mod_one _) hc fun _ hj => byteAt_right _ _ _ _ hj⟩

/-- Settles O29: the full write buffer makes room by performing its oldest entry. -/
theorem fullWriteBufferDrains : Obligations.FullWriteBufferDrains := by
  intro s v e es rs rt imm pa cached hwb hlen hw
  have hfull : ¬ s.wb.length < 4 := by simp [hwb, hlen]
  have hroom : s.makeRoom = .ok () { v with wb := es } := by
    simp only [State.makeRoom_full hfull, State.drainOne, hwb, hw, Res.bind]
  exact .of_makeRoom hroom rs rt imm pa cached

end Sys2Proof.Machine
end

section
/-!
SUPPORT and PROOFS. The interrupt inputs, and the hazards of the TLB instructions (O38, O46).
-/

namespace Sys2Proof.Machine

/-! ## Interrupt inputs -/

/-- Two words have a common bit exactly when their conjunction is not 0. -/
theorem and_ne_zero_iff {n : Nat} (a b : BitVec n) : a &&& b ≠ 0 ↔ ∃ k < n, a.getLsbD k = true ∧ b.getLsbD k = true := by
  constructor
  · intro h
    by_contra hn
    refine h (BitVec.eq_of_getLsbD_eq fun k hk => ?_)
    rw [BitVec.getLsbD_and, Bool.and_eq_false_iff.mpr]
    · exact BitVec.getLsbD_zero.symm
    · simpa [Decidable.or_iff_not_imp_left] using fun ha : a.getLsbD k = true => Bool.eq_false_iff.mpr fun hb => hn ⟨k, hk, ha, hb⟩
  · rintro ⟨k, _, ha, hb⟩ h
    have hk : (a &&& b).getLsbD k = true := by rw [BitVec.getLsbD_and, ha, hb]; rfl
    rw [h] at hk
    simp at hk

/-- The interrupt condition: IEc, and an input with its mask bit (R474); the inputs 3, 5 and 7 are never asserted (D9). -/
theorem StatusSettled.interruptPending_iff {s : State} (h : StatusSettled s) :
    s.interruptPending = true ↔ s.cp0.status.getLsbD 0 = true ∧
      ((s.cp0.sw.getLsbD 0 = true ∧ s.cp0.status.getLsbD 8 = true) ∨ (s.cp0.sw.getLsbD 1 = true ∧ s.cp0.status.getLsbD 9 = true) ∨
        (s.dev.biu.wrBusErr = true ∧ s.cp0.status.getLsbD 10 = true) ∨ (s.dev.intr.irqLow = true ∧ s.cp0.status.getLsbD 12 = true) ∨
        (s.dev.intr.irqHigh = true ∧ s.cp0.status.getLsbD 14 = true)) := by
  have hm : ∀ k < 8, ((s.cp0.status &&& 0xFF01).extractLsb' 8 8).getLsbD k = s.cp0.status.getLsbD (8 + k) := by
    intro k hk
    simp only [BitVec.getLsbD_extractLsb', BitVec.getLsbD_and]
    interval_cases k <;> simp
  have hip : ∀ k, s.ip.getLsbD k = [s.cp0.sw.getLsbD 0, s.cp0.sw.getLsbD 1, s.dev.biu.wrBusErr, false, s.dev.intr.irqLow, false,
      s.dev.intr.irqHigh, false].getD k false := fun k => BitVec.getLsbD_ofBoolListLE
  have h0 : bitOf (s.cp0.status &&& 0xFF01) 0 = s.cp0.status.getLsbD 0 := by simp [bitOf]
  simp only [State.interruptPending, h.seenStatus, h0, Bool.and_eq_true, bne_iff_ne, and_ne_zero_iff, hip]
  refine and_congr_right fun _ => ⟨?_, ?_⟩
  · rintro ⟨k, hk, ha, hb⟩
    rw [hm k hk] at hb
    interval_cases k <;> simp_all
  · rintro (⟨ha, hb⟩ | ⟨ha, hb⟩ | ⟨ha, hb⟩ | ⟨ha, hb⟩ | ⟨ha, hb⟩)
    · exact ⟨0, by decide, ha, by rw [hm 0 (by decide), hb]⟩
    · exact ⟨1, by decide, ha, by rw [hm 1 (by decide), hb]⟩
    · exact ⟨2, by decide, ha, by rw [hm 2 (by decide), hb]⟩
    · exact ⟨4, by decide, ha, by rw [hm 4 (by decide), hb]⟩
    · exact ⟨6, by decide, ha, by rw [hm 6 (by decide), hb]⟩

/-- At an instruction boundary without an NMI the step is the interrupt or the instruction at `pc` (R463). -/
theorem step_boundary {s : State} (ha : s.agenda = []) (hr : s.dev.coreRuns = true) (hp : s.pending = .none) (hn : s.dev.intr.nmi = false) :
    step s = if s.interruptPending then .next (s.raise .int) else s.fetchExec := by
  simp [step, State.stepOf, ha, State.coreStep, hr, hp, hn]

/-- Settles O38: the interrupt condition decides the step. -/
theorem interruptTaken : Obligations.InterruptTaken := by
  intro s hs ha hr hp hn
  rw [step_boundary ha hr hp hn]
  exact ⟨fun h => if_pos (hs.interruptPending_iff.mpr h), fun h => if_neg fun hi => h (hs.interruptPending_iff.mp hi)⟩

/-! ## TLB entries and their words -/

/-- A bit of a mask under which a word is 0. -/
theorem getLsbD_of_and_eq_zero {w m : Word} (h : w &&& m = 0) {i : Nat} (hm : m.getLsbD i = true) : w.getLsbD i = false := by
  have hi : (w &&& m).getLsbD i = false := by rw [h]; exact BitVec.getLsbD_zero
  simpa [BitVec.getLsbD_and, hm] using hi

/-- The entry that EntryHi and EntryLo describe gives EntryHi back (R323, R324). -/
theorem tlbEntryOf_hi {hi : Word} (h : hi &&& 0x0000003F = 0) (lo : Word) : (tlbEntryOf hi lo).hi = hi := by
  have hr : ∀ i < 6, hi.getLsbD i = false := fun i hi6 => getLsbD_of_and_eq_zero h (by interval_cases i <;> rfl)
  apply BitVec.eq_of_getLsbD_eq
  intro i hi32
  simp only [TlbEntry.hi, tlbEntryOf, BitVec.getLsbD_append, BitVec.getLsbD_extractLsb']
  by_cases h6 : i < 6
  · simp [h6, hr i h6]
  · by_cases h12 : i < 12
    · have h1 : i - 6 < 6 := by omega
      have h2 : 6 + (i - 6) = i := by omega
      simp [h6, h1, h2]
    · have h1 : ¬ i - 6 < 6 := by omega
      have h2 : i - 12 < 20 := by omega
      have h3 : i - 6 - 6 = i - 12 := by omega
      have h4 : 12 + (i - 12) = i := by omega
      simp [h6, h1, h2, h3, h4]

/-- It gives EntryLo back (R323, R324). -/
theorem tlbEntryOf_lo {lo : Word} (h : lo &&& 0x000000FF = 0) (hi : Word) : (tlbEntryOf hi lo).lo = lo := by
  have hr : ∀ i < 8, lo.getLsbD i = false := fun i hi8 => getLsbD_of_and_eq_zero h (by interval_cases i <;> rfl)
  apply BitVec.eq_of_getLsbD_eq
  intro i hi32
  simp only [TlbEntry.lo, tlbEntryOf, placed, bitOf, BitVec.getLsbD_or, getLsbD_boolAt _ hi32, BitVec.getLsbD_shiftLeft,
    BitVec.getLsbD_setWidth, BitVec.getLsbD_extractLsb']
  by_cases h8 : i < 8
  · have : i < 12 ∧ i ≠ 11 ∧ i ≠ 10 ∧ i ≠ 9 ∧ i ≠ 8 := by omega
    simp [this, hr i h8]
  · by_cases h12 : i < 12
    · interval_cases i <;> simp
    · have h1 : i ≠ 11 ∧ i ≠ 10 ∧ i ≠ 9 ∧ i ≠ 8 := by omega
      have h2 : i - 12 < 20 := by omega
      have h3 : i - 12 < 32 := by omega
      have h4 : 12 + (i - 12) = i := by omega
      simp [h1, h2, h3, h4, hi32, h12]

/-! ## The window after an instruction -/

/-- What stands in the window after an instruction has completed: its own trace before those that were there (R1082). -/
theorem State.retire_window (s : State) (t : Trace) :
    (s.retire t).window = (t :: s.recent.map Trace.settle).take s.board.hazardSlots := by
  have h : min s.board.hazardSlots s.traceLength = s.board.hazardSlots := Nat.min_eq_left (Nat.le_max_right _ _)
  rw [State.window, State.retire_recent, State.retire_board, List.take_take, h]

/-- Completing an instruction makes no coprocessor 0 write of another trace. -/
theorem Trace.settle_cp0 {t : Trace} {w : Cp0Write} (h : t.settle = .cp0 w) : t = .cp0 w := by
  cases t with
  | hiLoOver rd late => cases late <;> cases h
  | hiLoLate rd => cases h
  | _ => exact h

/-- Coprocessor 0 is usable or not by Status alone, where no write of Status is in the window. -/
theorem StatusSettled.cop0Usable_congr {s t : State} (hs : StatusSettled s) (ht : StatusSettled t) (h : t.cp0 = s.cp0) :
    t.cop0Usable = s.cop0Usable := by
  simp only [State.cop0Usable, hs.seenStatus, ht.seenStatus, h]

/-! ## Writing and reading a TLB entry -/

/-- `tlbr` puts the entry of the TLB that it sees into EntryHi and EntryLo (R323). -/
theorem exec_tlbr {s : State} (hu : s.cop0Usable = true) {k : BitVec 5} (hk : indexOf (s.seenIndex true) = k) :
    ∃ u, exec .tlbr s = .next u ∧ u.tlb = s.tlb ∧
      u.cp0 = { s.cp0 with entryHi := ((s.seenTlb tagTlb)[k.toNat]'k.isLt).hi, entryLo := ((s.seenTlb tagTlb)[k.toNat]'k.isLt).lo } := by
  subst hk
  exact ⟨_, if_pos hu, rfl, rfl⟩

/-- `tlbwi` without hazards writes the entry that Index names (R324). -/
theorem exec_tlbwi {s : State} (hu : s.cop0Usable = true) (hn : NoHazards s) :
    let k := indexOf s.cp0.index
    exec .tlbwi s = .next (State.retire { s with tlb := s.tlb.set k.toNat (tlbEntryOf s.cp0.entryHi s.cp0.entryLo) k.isLt }
      (.cp0 (.tlb k (s.tlb[k.toNat]'k.isLt)))) := by
  have h : exec .tlbwi s = .next (s.writeTlb (indexOf (s.seenIndex true))) := if_pos hu
  rw [h, hn.seenIndex, State.writeTlb, hn.seenEntryHi, hn.seenEntryLo]

section
variable {s t : State} {k : BitVec 5} {old : TlbEntry} (hw : t.window = (Trace.cp0 (.tlb k old) :: s.recent.map Trace.settle).take t.board.hazardSlots)
  (hn : NoHazards s)
include hw hn

/-- Behind a TLB write in a state that had no hazards, it is the only coprocessor 0 write in the window. -/
theorem window_tlbWrite : ∀ x ∈ t.window, x = .cp0 (.tlb k old) ∨ ∀ w, x ≠ .cp0 w := by
  intro x hx
  rw [hw] at hx
  rcases List.mem_cons.mp (List.mem_of_mem_take hx) with rfl | hx
  · exact .inl rfl
  · obtain ⟨y, hy, rfl⟩ := List.mem_map.mp hx
    exact .inr fun w he => (hn y hy).2 w (Trace.settle_cp0 he)

theorem statusSettled_tlbWrite : StatusSettled t := by
  intro old' hx
  rcases window_tlbWrite hw hn _ hx with h | h
  · cases h
  · exact h _ rfl

theorem seenIndex_tlbWrite (b : Bool) : t.seenIndex b = t.cp0.index := by
  have hf : t.window.filterMap (oldIndex b) = [] := by
    rw [List.filterMap_eq_nil_iff]
    intro x hx
    rcases window_tlbWrite hw hn x hx with rfl | h
    · rfl
    · cases x with
      | cp0 w => exact absurd rfl (h w)
      | _ => rfl
  rw [State.seenIndex, hf, State.choose_nil]

/-- The TLB seen after a TLB write: the one written or, within the window, the one before (R1082). -/
theorem seenTlb_tlbWrite (tag : Nat) : t.seenTlb tag = t.tlb ∨ (t.board.hazardSlots ≠ 0 ∧ t.seenTlb tag = t.tlb.set k.toNat old k.isLt) := by
  unfold State.seenTlb
  cases hz : t.board.hazardSlots with
  | zero =>
    have hnil : t.window = [] := by rw [hw, hz]; rfl
    rw [hnil]
    exact .inl rfl
  | succ n =>
    have hb : tlbBefore t.tlb t.window = [t.tlb.set k.toNat old k.isLt] := by
      have hrest : ∀ x ∈ (s.recent.map Trace.settle).take n, ∀ w, x ≠ .cp0 w := by
        intro x hx w he
        obtain ⟨y, hy, rfl⟩ := List.mem_map.mp (List.mem_of_mem_take hx)
        exact (hn y hy).2 w (Trace.settle_cp0 he)
      rw [hw, hz, List.take_succ_cons]
      simp only [tlbBefore, tlbBefore_nil _ _ hrest]
    have hm := t.choose_mem tag t.tlb (tlbBefore t.tlb t.window)
    rw [hb] at hm ⊢
    simp only [List.mem_cons, List.not_mem_nil, or_false] at hm
    exact hm.imp_right fun h => ⟨Nat.succ_ne_zero n, h⟩

end

/-- Settles O46: the entry that `tlbwi` writes has the words of EntryHi and EntryLo, whose reserved bits are 0; directly after it the choice is
between that TLB and the one before. -/
theorem tlbWriteThenRead : Obligations.TlbWriteThenRead := by
  intro s hc hu hn k old
  let e := tlbEntryOf s.cp0.entryHi s.cp0.entryLo
  let t := State.retire { s with tlb := s.tlb.set k.toNat e k.isLt } (.cp0 (.tlb k old))
  have hget : t.tlb[k.toNat]'k.isLt = e := Vector.getElem_set_self _
  have hback : { s.cp0 with entryHi := e.hi, entryLo := e.lo } = s.cp0 := by
    rw [tlbEntryOf_hi hc.entryHi, tlbEntryOf_lo hc.entryLo]
  refine ⟨t, exec_tlbwi hu hn, rfl, fun t' hc' ht' hu' hn' => ?_, ?_⟩
  · obtain ⟨u, he, htlb, hcp0⟩ := exec_tlbr hu' (k := k) (by rw [hn'.seenIndex, hc']; rfl)
    refine ⟨u, he, ?_, htlb.trans ht'⟩
    simp only [hcp0, hn'.seenTlb, ht', hc', hget]
    exact hback
  · have hw : t.window = (Trace.cp0 (.tlb k old) :: s.recent.map Trace.settle).take t.board.hazardSlots := State.retire_window _ _
    have hut : t.cop0Usable = true := (hn.statusSettled.cop0Usable_congr (statusSettled_tlbWrite hw hn) rfl).trans hu
    obtain ⟨u, he, htlb, hcp0⟩ := exec_tlbr hut (k := k) (by rw [seenIndex_tlbWrite hw hn]; rfl)
    refine ⟨u, he, htlb, ?_⟩
    rcases seenTlb_tlbWrite hw hn tagTlb with h | ⟨hz, h⟩
    · refine .inl ?_
      simp only [hcp0, h, hget]
      exact hback
    · refine .inr ⟨hz, ?_⟩
      simp only [hcp0, h, Vector.getElem_set_self]
      rw [TlbEntry.lo_eq_append]
      rfl

end Sys2Proof.Machine
end

section
/-!
SUPPORT and PROOFS. The places of a burst, the data cache after a refill, and what a data read gives (O60).
-/

namespace Sys2Proof.Machine

/-! ## The bytes of a word of memory -/

/-- Byte `n` of a word of memory is the byte of its lane. -/
theorem byteOf_readWord (m : Mem) (big : Bool) (key : Nat) {n : Nat} (hn : n < 4) :
    byteOf (m.readWord big key) n = m.read (laneCell big key n) := by
  apply BitVec.eq_of_getLsbD_eq
  intro i hi
  simp only [byteOf, Mem.readWord, ofLanes, BitVec.getLsbD_extractLsb', BitVec.getLsbD_append, hi, decide_true, Bool.true_and]
  interval_cases n <;> interval_cases i <;> rfl

/-- The byte at offset `k` of a word of memory is that of the cell `k` after its lowest, in both byte orders (R102). -/
theorem wordByte_readWord (m : Mem) (big : Bool) (key : Nat) {k : Nat} (hk : k < 4) :
    wordByte big (m.readWord big key) k = m.read (key + k) := by
  have hl : laneCell big key (if big then 3 - k else k) = key + k := by
    unfold laneCell
    cases big <;> simp only [Bool.false_eq_true, if_false, if_true]
    omega
  rw [wordByte, byteOf_readWord _ _ _ (by split <;> omega), hl]

/-! ## The data read -/

/-- An uncached data read of memory drains the write buffer and gives the word of the cells; beside that the transaction is all that
happens (R121). -/
theorem State.dataRead_uncached {s d v : State} {pa : Word} {be : BitVec 4} {r : Region} {key : Nat} {a : Attach} (hd : s.drainAll = .ok () d)
    (hr : d.isRegister pa = false) (ht : d.target (wordAddr pa) = .ok (.cells r key a)) (ha : a ≠ .nothing)
    (hv : d.transact .core (.cells r key a) be false = .ok true v) :
    s.dataRead pa false be = .ok (d.mem.readWord d.board.bigEndian key) v := by
  have hwb : d.wb = [] := s.drainAll_frame.2 d hd
  have hc : d.registerCheck pa false be = none := State.registerCheck_memory (by rw [State.mapAhead_empty hwb]; exact hr) _ _
  simp only [State.dataRead, Bool.false_eq_true, if_false, hd, Res.bind, hc]
  exact State.busRead_cells ht ha hv _

/-- A cached data read of memory is a cached load. -/
theorem State.dataRead_cached {s : State} {pa : Word} (hr : s.mapAhead.isRegister pa = false) (be : BitVec 4) :
    s.dataRead pa true be = s.cachedLoad (wordAddr pa) := by
  simp only [State.dataRead, if_true, State.registerCheck_memory hr]

theorem State.cachedLoad_hit {s : State} {pa w : Word} (h : s.cachedWord pa = some w) : s.cachedLoad pa = .ok w s := by
  simp only [State.cachedLoad, h]

/-- A state whose data cache has taken the words of a refill. -/
def State.filled (s : State) (base : Word) (ws : List Word) : State := { s with dcache := s.dFill s.dcache base (s.free tagWay) ws }

/-- A cached load that misses drains the write buffer, reads the burst around its address and fills the data cache with it (R52). -/
theorem State.cachedLoad_miss {s d v : State} {pa : Word} {ws : List Word} (hm : s.cachedWord pa = none) (hd : s.drainAll = .ok () d)
    (hb : d.burstRead .core (blockBase pa s.board.dBurst.words) .dbe s.board.dBurst.words = .ok ws v) :
    s.cachedLoad pa = .ok (ws.getD ((pa - blockBase pa s.board.dBurst.words).toNat / 4) 0) (v.filled (blockBase pa s.board.dBurst.words) ws) := by
  have hboard : d.board = s.board := by
    have h := s.drainAll_frame.1
    rw [hd] at h
    exact h.board
  simp only [State.cachedLoad, hm, hd, Res.bind, hboard, hb, State.filled]

/-- What completes in two parts has completed the first. -/
theorem Res.bind_eq_ok {α β : Type} {r : Res α} {k : α → State → Res β} {b : β} {u : State} (h : r.bind k = .ok b u) :
    ∃ a t, r = .ok a t ∧ k a t = .ok b u := by
  cases r with
  | ok a t => exact ⟨a, t, rfl, h⟩
  | exc e t => cases h
  | wait t => cases h
  | refused r => cases h

/-- A burst gives as many words as it reads. -/
theorem State.burstRead_length {u : BusUser} {e : Exc} {n : Nat} {s v : State} {pa : Word} {ws : List Word}
    (h : s.burstRead u pa e n = .ok ws v) : ws.length = n := by
  induction n generalizing s pa ws with
  | zero => cases h; rfl
  | succ n ih =>
    obtain ⟨w, t, -, h⟩ := Res.bind_eq_ok h
    obtain ⟨xs, x, hxs, h⟩ := Res.bind_eq_ok h
    cases h
    exact congrArg (· + 1) (ih hxs)

/-! ## The addresses of a burst -/

theorem Burst.words_bounds (b : Burst) : 0 < b.words ∧ b.words ≤ 32 := by cases b <;> decide

theorem wordAddr_aligned (pa : Word) : (wordAddr pa).toNat % 4 = 0 := by
  have h := Nat.and_mod_two_pow (n := 2) (a := pa.toNat) (b := 0xFFFFFFFC)
  simpa [wordAddr] using h

/-- A word address is one of the addresses of the block around it. -/
theorem blockBase_offset {w : Word} (hw : w.toNat % 4 = 0) {n : Nat} (hn : 0 < n) (hn32 : n ≤ 32) :
    ∃ k < n, (w - blockBase w n).toNat / 4 = k ∧ w = blockBase w n + BitVec.ofNat 32 (4 * k) := by
  let m : Word := BitVec.ofNat 32 (4 * n - 1)
  have hm : m.toNat = 4 * n - 1 := Nat.mod_eq_of_lt (by omega)
  have hsum : w = blockBase w n + (w &&& m) := by
    have hz : (w &&& ~~~m) &&& (w &&& m) = 0 := by
      apply BitVec.eq_of_getLsbD_eq
      intro i hi
      simp only [BitVec.getLsbD_and, BitVec.getLsbD_not, hi, decide_true, Bool.true_and]
      cases w.getLsbD i <;> cases m.getLsbD i <;> simp
    rw [show blockBase w n = w &&& ~~~m from rfl, BitVec.add_eq_or_of_and_eq_zero _ _ hz]
    apply BitVec.eq_of_getLsbD_eq
    intro i hi
    simp only [BitVec.getLsbD_or, BitVec.getLsbD_and, BitVec.getLsbD_not, hi, decide_true, Bool.true_and]
    cases w.getLsbD i <;> cases m.getLsbD i <;> rfl
  have hlt : (w &&& m).toNat < 4 * n := by
    have h : w.toNat &&& m.toNat ≤ m.toNat := Nat.and_le_right
    rw [BitVec.toNat_and]
    omega
  have hal : (w &&& m).toNat % 4 = 0 := by
    rw [BitVec.toNat_and, show 4 = 2 ^ 2 from rfl, Nat.and_mod_two_pow, show w.toNat % 2 ^ 2 = 0 from hw, Nat.zero_and]
  have hd : w - blockBase w n = w &&& m := BitVec.sub_eq_iff_eq_add.mpr (by rw [BitVec.add_comm]; exact hsum)
  refine ⟨(w &&& m).toNat / 4, by omega, by rw [hd], ?_⟩
  have h4 : 4 * ((w &&& m).toNat / 4) = (w &&& m).toNat := by omega
  rw [h4, BitVec.ofNat_toNat, BitVec.setWidth_eq, ← hsum]

/-! ## The places of a burst -/

theorem remapTo_low (sv rm pa : Word) : (remapTo sv rm pa).toNat % 512 = pa.toNat % 512 := by
  have h : (pa.extractLsb' 0 9).toNat = pa.toNat % 512 := by simp [BitVec.extractLsb'_toNat]
  have hlt : (pa.extractLsb' 0 9).toNat < 2 ^ 9 := BitVec.isLt _
  unfold remapTo
  dsimp only
  rw [BitVec.toNat_append, ← Nat.shiftLeft_add_eq_or_of_lt hlt, Nat.shiftLeft_eq, h]
  omega

/-- The re-mapper leaves the low bits of an address alone (R195). -/
theorem Biu.remap_low {b : Biu} {pa p : Word} (h : b.remap pa = .ok p) : p.toNat % 512 = pa.toNat % 512 := by
  unfold Biu.remap at h
  dsimp only at h
  split at h
  · cases h; rfl
  · split at h
    · cases h
    · split at h
      · cases h
      · split at h
        · split at h <;> cases h
          exact remapTo_low _ _ _
        · split at h
          · split at h <;> cases h
            exact remapTo_low _ _ _
          · cases h; rfl

/-- The size of a bank is a multiple of 128 bytes (R221). -/
theorem Bank.bytes_dvd (b : Bank) : 128 ∣ b.bytes := by
  have h : ∀ n : Fin 20, 128 ∣ (bankRow n).bytes := by decide
  unfold Bank.bytes
  split
  · exact h _
  · exact Nat.dvd_zero _

/-- The cell of an address has its low bits (R190). -/
theorem cellOf_low {b : Board} {r : Region} {pa key : Nat} {a : Attach} (h : cellOf b r pa = some (key, a)) : key % 128 = pa % 128 := by
  cases r with
  | bank second =>
    have hm : pa % 0x2000000 % (b.bank second).bytes % 128 = pa % 0x2000000 % 128 := Nat.mod_mod_of_dvd _ (Bank.bytes_dvd _)
    simp only [cellOf, Option.some.injEq, Prod.mk.injEq] at h
    obtain ⟨rfl, -⟩ := h
    split <;> omega
  | cs n =>
    have hc : csBase n % 128 = 0 := by unfold csBase; split <;> rfl
    simp only [cellOf, Option.some.injEq, Prod.mk.injEq] at h
    omega
  | mcs n =>
    simp only [cellOf, Option.some.injEq, Prod.mk.injEq] at h
    omega
  | cardMem second | cardAttr second | cardIo second =>
    simp only [cellOf, Option.some.injEq, Prod.mk.injEq] at h
    obtain ⟨rfl, -⟩ := h
    split <;> omega
  | functionRegisters | sdramMode | silent => cases h

/-- The place of an address has its low bits. -/
theorem State.place_low {s : State} {pa a : Word} {dev : Attach} (h : s.place pa = some (a, dev)) : a.toNat % 128 = pa.toNat % 128 := by
  unfold State.place at h
  dsimp only at h
  split at h
  case h_1 p hp =>
    obtain ⟨⟨key, x⟩, hc, he⟩ := Option.map_eq_some_iff.mp h
    cases he
    have h1 := cellOf_low hc
    have h2 := Biu.remap_low hp
    rw [BitVec.toNat_ofNat]
    omega
  case h_2 => cases h

/-! ## One set of the data cache -/

/-- The set number has the five bits above the byte of a word. -/
theorem dIndex_low (full : Bool) (a : Word) : (dIndex full a).toNat % 32 = a.toNat / 4 % 32 := by
  cases full
  · have h : (dIndex false a).toNat = a.toNat / 4 % 64 := by
      show ((0#1 ++ a.extractLsb' 2 6 : BitVec (1 + 6))).toNat = _
      rw [BitVec.toNat_append]
      simp [BitVec.extractLsb'_toNat, Nat.shiftRight_eq_div_pow]
    omega
  · have h : (dIndex true a).toNat = a.toNat / 4 % 128 := by
      simp [dIndex, BitVec.extractLsb'_toNat, Nat.shiftRight_eq_div_pow]
    omega

/-- The places of two words of 32 that follow one another are in different sets. -/
theorem dIndex_places {s : State} {full : Bool} {pa a b : Word} {x y : Attach} {j k : Nat}
    (ha : s.place (pa + BitVec.ofNat 32 (4 * j)) = some (a, x)) (hb : s.place (pa + BitVec.ofNat 32 (4 * k)) = some (b, y))
    (hj : j < 32) (hk : k < 32) (hne : j ≠ k) : dIndex full a ≠ dIndex full b := by
  intro h
  have h1 : a.toNat / 4 % 32 = b.toNat / 4 % 32 := by rw [← dIndex_low full, ← dIndex_low full, h]
  have h2 := State.place_low ha
  have h3 := State.place_low hb
  rw [BitVec.toNat_add, BitVec.toNat_ofNat] at h2 h3
  omega

theorem dSet_dPut (full : Bool) (c : Vector DSet 128) (p q : Word) (d : DSet) :
    dSet full (dPut full c p d) q = if dIndex full q = dIndex full p then d else dSet full c q := by
  unfold dSet dPut
  dsimp only
  by_cases h : dIndex full q = dIndex full p
  · simp only [h, Vector.getElem_set_self, if_true]
  · have hne : (dIndex full p).toNat ≠ (dIndex full q).toNat := fun e => h (BitVec.eq_of_toNat_eq e.symm)
    rw [if_neg h, Vector.getElem_set_ne _ _ hne]

/-- A set in which the word of `pa` is `w`: in the first way, or in the second and not in the first. -/
def DSet.gives (d : DSet) (pa w : Word) : Prop :=
  (DLine.hits d.way0 pa = true ∧ d.way0.map (·.word) = some w) ∨
    (DLine.hits d.way0 pa = false ∧ DLine.hits d.way1 pa = true ∧ d.way1.map (·.word) = some w)

theorem dLookup_of_gives {full : Bool} {c : Vector DSet 128} {pa w : Word} (h : (dSet full c pa).gives pa w) : dLookup full c pa = some w := by
  unfold dLookup
  dsimp only
  rcases h with ⟨h0, hw⟩ | ⟨h0, h1, hw⟩
  · rw [if_pos h0, hw]
  · rw [if_neg (by simp [h0]), if_pos h1, hw]

/-- A word that enters the cache changes its set alone, and is there then. -/
theorem dAllocate_eq (full : Bool) (c : Vector DSet 128) (pa w : Word) (second : Bool) :
    ∃ d : DSet, dAllocate full c pa w second = dPut full c pa d ∧ d.gives pa w := by
  have hl : DLine.hits (some { tag := dTag pa, word := w }) pa = true := beq_self_eq_true _
  unfold dAllocate dReplace
  dsimp only
  by_cases h0 : DLine.hits (dSet full c pa).way0 pa = true
  · rw [if_pos (by simp [h0]), if_pos h0]
    exact ⟨_, rfl, .inl ⟨hl, rfl⟩⟩
  · have h0' : DLine.hits (dSet full c pa).way0 pa = false := Bool.eq_false_iff.mpr h0
    by_cases h1 : DLine.hits (dSet full c pa).way1 pa = true
    · rw [if_pos (by simp [h1]), if_neg h0, if_pos h1]
      exact ⟨_, rfl, .inr ⟨h0', hl, rfl⟩⟩
    · rw [if_neg (by simp [h0, h1])]
      split
      · exact ⟨_, rfl, .inl ⟨hl, rfl⟩⟩
      · exact ⟨_, rfl, .inr ⟨h0', hl, rfl⟩⟩

theorem dLookup_dAllocate_self (full : Bool) (c : Vector DSet 128) (pa w : Word) (second : Bool) :
    dLookup full (dAllocate full c pa w second) pa = some w := by
  obtain ⟨d, hd, hg⟩ := dAllocate_eq full c pa w second
  exact dLookup_of_gives (by rw [hd, dSet_dPut, if_pos rfl]; exact hg)

theorem dLookup_dAllocate_other {full : Bool} {p q : Word} (h : dIndex full q ≠ dIndex full p) (c : Vector DSet 128) (w : Word) (second : Bool) :
    dLookup full (dAllocate full c p w second) q = dLookup full c q := by
  obtain ⟨d, hd, -⟩ := dAllocate_eq full c p w second
  unfold dLookup
  rw [hd, dSet_dPut, if_neg h]

/-! ## The data cache after a refill -/

theorem add_four_mul (pa : Word) (k : Nat) : pa + 4 + BitVec.ofNat 32 (4 * k) = pa + BitVec.ofNat 32 (4 * (k + 1)) := by
  apply BitVec.eq_of_toNat_eq
  have h4 : (4 : Word).toNat = 4 := rfl
  simp only [BitVec.toNat_add, BitVec.toNat_ofNat, h4]
  omega

/-- A refill leaves the sets alone that none of its places is in. -/
theorem State.dFill_other (s : State) (q : Word) (ws : List Word) (c : Vector DSet 128) (pa free : Word)
    (h : ∀ k < ws.length, ∀ a x, s.place (pa + BitVec.ofNat 32 (4 * k)) = some (a, x) → dIndex s.board.dKbyte q ≠ dIndex s.board.dKbyte a) :
    dLookup s.board.dKbyte (s.dFill c pa free ws) q = dLookup s.board.dKbyte c q := by
  induction ws generalizing c pa free with
  | nil => rfl
  | cons w ws ih =>
    unfold State.dFill
    rw [ih _ _ _ fun k hk a x hp => h (k + 1) (Nat.succ_lt_succ hk) a x (by rw [← add_four_mul]; exact hp)]
    split
    case h_1 a x hp => exact dLookup_dAllocate_other (h 0 (Nat.succ_pos _) a x (by simpa using hp)) c w _
    case h_2 => rfl

/-- After a refill of at most 32 words each of its places holds the word read for it. -/
theorem State.dFill_lookup (s : State) (ws : List Word) (c : Vector DSet 128) (pa free : Word) (hlen : ws.length ≤ 32) {k : Nat}
    (hk : k < ws.length) {a : Word} {x : Attach} (hp : s.place (pa + BitVec.ofNat 32 (4 * k)) = some (a, x)) :
    dLookup s.board.dKbyte (s.dFill c pa free ws) a = ws[k]? := by
  induction ws generalizing c pa free k with
  | nil => cases hk
  | cons w ws ih =>
    have hlen' : ws.length + 1 ≤ 32 := hlen
    unfold State.dFill
    cases k with
    | zero =>
      have hpa : s.place pa = some (a, x) := by simpa using hp
      rw [s.dFill_other a ws _ _ _ fun j hj b y hb => dIndex_places hp (by rw [← add_four_mul]; exact hb) (by decide) (by omega) (by omega), hpa]
      exact dLookup_dAllocate_self _ _ _ _ _
    | succ k =>
      rw [List.getElem?_cons_succ]
      exact ih _ _ _ (Nat.le_of_succ_le hlen') (Nat.lt_of_succ_lt_succ hk) (by rw [add_four_mul]; exact hp)

/-- Where memory is, the machine with a refill of at most 32 words finds each of them in the data cache. -/
theorem State.filled_cachedWord (v : State) (base : Word) {ws : List Word} (hlen : ws.length ≤ 32) {k : Nat} (hk : k < ws.length)
    (hp : (v.place (base + BitVec.ofNat 32 (4 * k))).isSome) : (v.filled base ws).cachedWord (base + BitVec.ofNat 32 (4 * k)) = ws[k]? := by
  obtain ⟨⟨a, x⟩, ha⟩ := Option.isSome_iff_exists.mp hp
  have hu : (v.filled base ws).place (base + BitVec.ofNat 32 (4 * k)) = some (a, x) := (State.place_congr rfl rfl rfl _).trans ha
  rw [State.cachedWord, hu, Option.bind_some]
  exact v.dFill_lookup ws _ _ _ hlen hk ha

/-- Settles O60: the uncached read, the hit, and the miss, whose burst falls into different sets of the data cache. -/
theorem loadedWords : Obligations.LoadedWords := by
  intro s pa be
  refine ⟨fun d v r key a hd hr ht ha hv => ?_, fun hr => ⟨fun w hw => ?_, ?_⟩⟩
  · have hboard : d.board = s.board := by
      have h := s.drainAll_frame.1
      rw [hd] at h
      exact h.board
    refine ⟨_, State.dataRead_uncached hd hr ht ha hv, State.transact_eq.1 _ hv, fun k hk => ?_⟩
    rw [← hboard]
    exact wordByte_readWord _ _ _ hk
  · rw [State.dataRead_cached hr, State.cachedLoad_hit hw]
  · intro d v ws n base hm hd hb
    obtain ⟨hn, hn32⟩ := Burst.words_bounds s.board.dBurst
    have hlen : ws.length = n := State.burstRead_length hb
    obtain ⟨i, hi, hdiv, haddr⟩ := blockBase_offset (wordAddr_aligned pa) hn hn32
    have hget : ws[i]? = some (ws.getD i 0) := by
      rw [List.getD_eq_getElem?_getD, List.getElem?_eq_getElem (hlen ▸ hi)]
      rfl
    refine ⟨ws.getD i 0, v.filled base ws, ?_, rfl, by rw [hdiv]; exact hget, fun hp => ?_⟩
    · rw [State.dataRead_cached hr, State.cachedLoad_miss hm hd hb, hdiv]
    · have hall : ∀ k < n, (v.filled base ws).cachedWord (base + BitVec.ofNat 32 (4 * k)) = ws[k]? := fun k hk =>
        v.filled_cachedWord base (hlen ▸ hn32) (hlen ▸ hk) (hp k hk)
      refine ⟨?_, hall⟩
      rw [haddr, ← hget]
      exact hall i hi

end Sys2Proof.Machine
end

section
/-!
SUPPORT and PROOFS. The segments of the address space, the matching TLB entries, and translation (O49, O50).
-/

namespace Sys2Proof.Machine

/-! ## The segments (R106) -/

theorem getLsbD_eq_decide_div (w : Word) (i : Nat) : w.getLsbD i = decide (w.toNat / 2 ^ i % 2 = 1) := by
  rw [← BitVec.testBit_toNat, Nat.testBit_eq_decide_div_mod_eq]

/-- The low 29 bits of an address are its distance from the start of its block of 512 Mbytes. -/
theorem and_low29_eq_sub {va base : Word} (h : va.toNat / 2 ^ 29 * 2 ^ 29 = base.toNat) : va &&& 0x1FFFFFFF = va - base := by
  apply BitVec.eq_of_toNat_eq
  have hm : (0x1FFFFFFF : Word).toNat = 2 ^ 29 - 1 := rfl
  have hva := va.isLt
  rw [BitVec.toNat_and, hm, Nat.and_two_pow_sub_one_eq_mod, BitVec.toNat_sub]
  omega

/-- Without bit 31 an address is mapped: kuseg. -/
theorem segmentOf_kuseg {va : Word} (h : va.getLsbD 31 = false) : segmentOf va = .mapped := by
  simp only [segmentOf, h, Bool.not_false, if_true]

/-- From 0x80000000 to 0xBFFFFFFF an address reaches the first 512 Mbytes: kseg0, which is cached, and kseg1. -/
theorem segmentOf_unmapped {va : Word} (hlo : 0x80000000 ≤ va.toNat) (hhi : va.toNat < 0xC0000000) :
    segmentOf va = .direct (va &&& 0x1FFFFFFF) (decide (va.toNat < 0xA0000000)) := by
  have h31 : va.getLsbD 31 = true := by rw [getLsbD_eq_decide_div, decide_eq_true_eq]; omega
  have h30 : va.getLsbD 30 = false := by rw [getLsbD_eq_decide_div, decide_eq_false_iff_not]; omega
  have h29 : (!va.getLsbD 29) = decide (va.toNat < 0xA0000000) := by
    rw [getLsbD_eq_decide_div, ← decide_not, decide_eq_decide]
    omega
  simp only [segmentOf, h31, h30, h29, Bool.not_true, Bool.not_false, Bool.false_eq_true, if_false, if_true]

/-- With bits 31 and 30 an address is in the reserved area or in kseg2. -/
theorem segmentOf_high {va : Word} (h : 0xC0000000 ≤ va.toNat) :
    segmentOf va = if 0xFF000000 ≤ va.toNat ∧ va.toNat < 0xFFFF0000 then .direct va false else .mapped := by
  have hva := va.isLt
  have h31 : va.getLsbD 31 = true := by rw [getLsbD_eq_decide_div, decide_eq_true_eq]; omega
  have h30 : va.getLsbD 30 = true := by rw [getLsbD_eq_decide_div, decide_eq_true_eq]; omega
  simp only [segmentOf, h31, h30, Bool.not_true, Bool.false_eq_true, if_false, Bool.and_eq_true, decide_eq_true_eq]

theorem segmentOf_kseg0 {va : Word} (hlo : 0x80000000 ≤ va.toNat) (hhi : va.toNat < 0xA0000000) :
    segmentOf va = .direct (va - 0x80000000) true := by
  have hbase : va.toNat / 2 ^ 29 * 2 ^ 29 = 0x80000000 := by omega
  rw [segmentOf_unmapped hlo (by omega), and_low29_eq_sub (base := 0x80000000) hbase, decide_eq_true hhi]

theorem segmentOf_kseg1 {va : Word} (hlo : 0xA0000000 ≤ va.toNat) (hhi : va.toNat < 0xC0000000) :
    segmentOf va = .direct (va - 0xA0000000) false := by
  have hbase : va.toNat / 2 ^ 29 * 2 ^ 29 = 0xA0000000 := by omega
  rw [segmentOf_unmapped (by omega) hhi, and_low29_eq_sub (base := 0xA0000000) hbase, decide_eq_false (by omega)]

/-- Settles O49: in kernel mode the three unmapped segments translate directly. -/
theorem unmappedSegments : Obligations.UnmappedSegments := by
  intro s k va hs hk
  have hu : s.userMode (k.draw tagStatus) = false := (hs.userMode _).trans hk
  refine ⟨fun ⟨hlo, hhi⟩ => ?_, fun ⟨hlo, hhi⟩ => ?_, fun ⟨hlo, hhi⟩ => ?_⟩
  · exact State.translate_direct hu (segmentOf_kseg0 hlo hhi)
  · exact State.translate_direct hu (segmentOf_kseg1 hlo hhi)
  · exact State.translate_direct hu (by rw [segmentOf_high (by omega), if_pos ⟨hlo, hhi⟩])

/-! ## The matching entries (R110) -/

theorem TlbEntry.hit_iff (e : TlbEntry) (vpn : BitVec 20) (pid : BitVec 6) :
    e.hit vpn pid = true ↔ e.vpn = vpn ∧ (e.g = true ∨ e.pid = pid) := by
  simp only [TlbEntry.hit, Bool.and_eq_true, Bool.or_eq_true, beq_iff_eq]

theorem mem_tlbHits {t : Vector TlbEntry 32} {vpn : BitVec 20} {pid : BitVec 6} {n : BitVec 5} :
    n ∈ tlbHits t vpn pid ↔ (t[n.toNat]'n.isLt).vpn = vpn ∧ ((t[n.toNat]'n.isLt).g = true ∨ (t[n.toNat]'n.isLt).pid = pid) := by
  have hn : n ∈ (List.range 32).map (BitVec.ofNat 5) :=
    List.mem_map.mpr ⟨n.toNat, List.mem_range.mpr n.isLt, BitVec.ofNat_toNat 5 n⟩
  rw [tlbHits, List.mem_filter, TlbEntry.hit_iff]
  exact and_iff_right hn

theorem tlbHits_nodup (t : Vector TlbEntry 32) (vpn : BitVec 20) (pid : BitVec 6) : (tlbHits t vpn pid).Nodup :=
  List.Nodup.filter _ (by decide)

/-- One matching entry alone is picked. -/
theorem State.pickHit_unique (s : State) (tag : Nat) {is : List (BitVec 5)} {n : BitVec 5} (hnd : is.Nodup) (hn : n ∈ is)
    (hu : ∀ m ∈ is, m = n) : s.pickHit tag is = some n := by
  match is, hnd with
  | [i], _ => rw [hu i List.mem_cons_self]; rfl
  | i :: j :: is, hnd =>
    have hij : i = j := (hu i List.mem_cons_self).trans (hu j (List.mem_cons_of_mem _ List.mem_cons_self)).symm
    exact absurd (hij ▸ List.mem_cons_self) (List.nodup_cons.mp hnd).1

theorem AccessKind.tlbError_eq (k : AccessKind) (va : Word) (refill : Bool) :
    k.tlbError va refill = if k = .store then .tlbs va refill else .tlbl va refill := by
  cases k <;> rfl

/-- Settles O50: kuseg and kseg2 are mapped, and the matching entries are none or the one that is picked. -/
theorem mappedTranslation : Obligations.MappedTranslation := by
  intro s k va hs hva entry hit tlbFault
  have huser : va.getLsbD 31 = false ∨ s.userMode (k.draw tagStatus) = false :=
    hva.imp_right fun ⟨hk, _⟩ => (hs.statusSettled.userMode _).trans hk
  have hmapped : segmentOf va = .mapped := by
    rcases hva with h31 | ⟨-, hlo, hout⟩
    · exact segmentOf_kuseg h31
    · rw [segmentOf_high hlo, if_neg (by omega)]
  have hmem : ∀ n, n ∈ tlbHits s.tlb (va.extractLsb' 12 20) (s.cp0.entryHi.extractLsb' 6 6) ↔ hit n := fun n => mem_tlbHits
  rw [State.translate_mapped huser hmapped, hs.seenTlb, hs.seenEntryHi]
  dsimp only
  refine ⟨fun hnone => ?_, fun n hn hone => ?_⟩
  · rw [List.eq_nil_iff_forall_not_mem.mpr fun n h => hnone n ((hmem n).mp h)]
    simp only [State.pickHit, AccessKind.tlbError_eq, tlbFault]
  · rw [s.pickHit_unique _ (tlbHits_nodup ..) ((hmem n).mpr hn) fun m hm => hone m ((hmem m).mp hm)]
    simp only [AccessKind.tlbError_eq, tlbFault, Bool.not_eq_true', Bool.and_eq_true, decide_eq_true_eq, entry]

end Sys2Proof.Machine
end

section
/-!
SUPPORT and PROOFS. The bytes that the aligned loads take from a word, and the Address Errors (O22, O24).
-/

namespace Sys2Proof.Machine

/-! ## The parts of a word -/

theorem halfOf_eq_append (w : Word) (l : Nat) : halfOf w l = byteOf w (l + 1) ++ byteOf w l := by
  apply BitVec.eq_of_getLsbD_eq
  intro i hi
  simp only [halfOf, byteOf, BitVec.getLsbD_append, BitVec.getLsbD_extractLsb', hi, decide_true, Bool.true_and]
  by_cases h : i < 8
  · simp only [h, decide_true, if_true, Bool.true_and]
  · have h8 : i - 8 < 8 := by omega
    have hsum : 8 * (l + 1) + (i - 8) = 8 * l + i := by omega
    simp only [h, h8, hsum, decide_true, decide_false, if_false, Bool.true_and]

/-- The half-word at an even address is its two bytes in the byte order (R102). -/
theorem State.halfAt_eq (s : State) {va : Word} (h : va.toNat % 2 = 0) (w : Word) :
    s.halfAt va w =
      if s.board.bigEndian then wordByte s.board.bigEndian w (va.toNat % 4) ++ wordByte s.board.bigEndian w (va.toNat % 4 + 1)
      else wordByte s.board.bigEndian w (va.toNat % 4 + 1) ++ wordByte s.board.bigEndian w (va.toNat % 4) := by
  unfold State.halfAt
  rw [halfOf_eq_append]
  cases s.board.bigEndian <;> simp only [wordByte, halfLane, Bool.false_eq_true, if_false, if_true]
  · have hl : 2 * (va.toNat / 2 % 2) = va.toNat % 4 := by omega
    rw [hl]
  · have hl : 2 - 2 * (va.toNat / 2 % 2) + 1 = 3 - va.toNat % 4 := by omega
    have hl' : 2 - 2 * (va.toNat / 2 % 2) = 3 - (va.toNat % 4 + 1) := by omega
    rw [hl, hl']

/-- A word is its four bytes in the byte order (R102). -/
theorem word_eq_append (big : Bool) (w : Word) :
    w = if big then wordByte big w 0 ++ wordByte big w 1 ++ wordByte big w 2 ++ wordByte big w 3
      else wordByte big w 3 ++ wordByte big w 2 ++ wordByte big w 1 ++ wordByte big w 0 := by
  cases big <;> exact (ofLanes_laneOf w).symm

/-! ## The loads and the store of a word (R422 to R426, R429 to R431) -/

section
variable (s : State) (rs rt : Reg) (imm : BitVec 16)

theorem exec_lb : exec (.lb rs rt imm) s =
    s.load rt (s.effAddr rs imm) 1 (s.byteBe (s.effAddr rs imm)) .other fun w => sext (s.byteAt (s.effAddr rs imm) w) := rfl

theorem exec_lbu : exec (.lbu rs rt imm) s =
    s.load rt (s.effAddr rs imm) 1 (s.byteBe (s.effAddr rs imm)) .other fun w => zext (s.byteAt (s.effAddr rs imm) w) := rfl

theorem exec_lh : exec (.lh rs rt imm) s =
    s.load rt (s.effAddr rs imm) 2 (s.halfBe (s.effAddr rs imm)) .other fun w => sext (s.halfAt (s.effAddr rs imm) w) := rfl

theorem exec_lhu : exec (.lhu rs rt imm) s =
    s.load rt (s.effAddr rs imm) 2 (s.halfBe (s.effAddr rs imm)) .other fun w => zext (s.halfAt (s.effAddr rs imm) w) := rfl

theorem exec_lwl : exec (.lwl rs rt imm) s =
    s.load rt (s.effAddr rs imm) 1 (leftEnable (leftShift s.board.bigEndian (s.effAddr rs imm))) .left fun w =>
      mergeLeft w (s.mergeReg rt .left) (leftShift s.board.bigEndian (s.effAddr rs imm)) := rfl

theorem exec_lwr : exec (.lwr rs rt imm) s =
    s.load rt (s.effAddr rs imm) 1 (rightEnable (rightShift s.board.bigEndian (s.effAddr rs imm))) .right fun w =>
      mergeRight w (s.mergeReg rt .right) (rightShift s.board.bigEndian (s.effAddr rs imm)) := rfl

theorem exec_lw : exec (.lw rs rt imm) s = s.load rt (s.effAddr rs imm) 4 0xF .other fun w => w := rfl

theorem exec_sw : exec (.sw rs rt imm) s = s.store (s.effAddr rs imm) 4 (s.opReg rt) 0xF := rfl

end

/-- Settles O22: each aligned load writes the part of the word that it names. -/
theorem alignedLoads : Obligations.AlignedLoads := by
  intro s u rs rt imm w va big b o
  refine ⟨fun h => ⟨?_, ?_⟩, fun h hs => ⟨?_, ?_⟩, fun h hs => ?_⟩
  · exact Loads.of_load h (exec_lb ..) (Nat.mod_one _)
  · exact Loads.of_load h (exec_lbu ..) (Nat.mod_one _)
  · rw [← s.halfAt_eq hs w]
    exact Loads.of_load h (exec_lh ..) hs
  · rw [← s.halfAt_eq hs w]
    exact Loads.of_load h (exec_lhu ..) hs
  · rw [← word_eq_append big w]
    exact Loads.of_load h (exec_lw ..) hs

/-! ## Address Errors (R421, R470) -/

/-- A load checks the alignment, translates, and reads (R420, R421). -/
theorem State.loadWord_eq (s : State) (va : Word) (size : Nat) (be : BitVec 4) :
    s.loadWord va size be =
      if va.toNat % size = 0 then (s.translate .load va).bind fun p t => t.dataRead p.1 p.2 be else .exc (.adel va) s := by
  by_cases h : va.toNat % size = 0 <;> simp [State.loadWord, aligned, h]

/-- A load at a misaligned address, or whose translation is an Address Error, raises it before any access. -/
theorem State.load_addressError {s : State} {va : Word} {size : Nat}
    (h : va.toNat % size ≠ 0 ∨ s.translate .load va = .exc (.adel va) s) (rt : Reg) (be : BitVec 4) (kind : LoadKind) (f : Word → Word) :
    s.load rt va size be kind f = .next (s.raise (.adel va)) := by
  rw [State.load, State.loadWord_eq]
  split
  case isTrue ha =>
    rw [h.resolve_left (not_not_intro ha)]
    rfl
  case isFalse => rfl

/-- A store at a misaligned address, or whose translation is an Address Error, raises it before any access. -/
theorem State.store_addressError {s : State} {va : Word} {size : Nat}
    (h : va.toNat % size ≠ 0 ∨ s.translate .store va = .exc (.ades va) s) (data : Word) (be : BitVec 4) :
    s.store va size data be = .next (s.raise (.ades va)) := by
  have hl : s.storeWord va size data be = .exc (.ades va) s := by
    by_cases ha : va.toNat % size = 0
    · have ht := h.resolve_left (not_not_intro ha)
      simp only [State.storeWord, aligned, ha, ht, Res.bind, decide_true, Bool.not_true, Bool.false_eq_true, if_false]
    · simp only [State.storeWord, aligned, ha, decide_false, Bool.not_false, if_true]
  simp only [State.store, hl, Res.bind, Res.outcome]

/-- A fetch at a misaligned `pc`, or whose translation is an Address Error, raises it before any access. -/
theorem State.fetchExec_addressError {s : State} (hp : ∀ w, s.pending ≠ .exec w)
    (h : s.pc.toNat % 4 ≠ 0 ∨ s.translate .fetch s.pc = .exc (.adel s.pc) s) : s.fetchExec = .next (s.raise (.adel s.pc)) := by
  have hf : s.fetch = .exc (.adel s.pc) s := by
    by_cases ha : s.pc.toNat % 4 = 0
    · have ht := h.resolve_left (not_not_intro ha)
      simp only [State.fetch, aligned, ha, ht, Res.bind, decide_true, Bool.not_true, Bool.false_eq_true, if_false]
    · simp only [State.fetch, aligned, ha, decide_false, Bool.not_false, if_true]
  unfold State.fetchExec
  split
  case h_1 w hw => exact absurd hw (hp w)
  case h_2 => rw [hf]

/-- Settles O24: alignment comes before translation, and both before any access. -/
theorem addressErrors : Obligations.AddressErrors := by
  intro s rs rt imm va fails user
  have huser : user → ∀ (k : AccessKind) (a : Word), a.getLsbD 31 = true → s.translate k a = .exc (k.addressError a) s :=
    fun ⟨hs, hu⟩ k a ha => State.translate_user ((hs.userMode _).trans hu) ha
  refine ⟨fun ho => ⟨?_, ?_⟩, fun ho => ⟨?_, ?_, ?_⟩, fun hu h31 => ⟨?_, ?_⟩, fun hp ho => ?_⟩
  · exact State.load_addressError (.inl ho) ..
  · exact State.store_addressError (.inl ho) ..
  · exact State.load_addressError (.inl ho) ..
  · exact State.load_addressError (.inl ho) ..
  · exact State.store_addressError (.inl ho) ..
  · have hload {size : Nat} := State.load_addressError (size := size) (.inr (huser hu .load va h31))
    simp only [List.forall_mem_cons, List.not_mem_nil, false_imp_iff, implies_true, and_true]
    exact ⟨hload .., hload .., hload .., hload .., hload .., hload .., hload ..⟩
  · have hstore {size : Nat} := State.store_addressError (size := size) (.inr (huser hu .store va h31))
    simp only [List.forall_mem_cons, List.not_mem_nil, false_imp_iff, implies_true, and_true]
    exact ⟨hstore .., hstore .., hstore .., hstore .., hstore ..⟩
  · exact State.fetchExec_addressError hp (ho.imp_right fun ⟨hu, h31⟩ => huser hu .fetch s.pc h31)

end Sys2Proof.Machine
end

section
/-!
SUPPORT and PROOFS. Accesses of the function registers (O26).
-/

namespace Sys2Proof.Machine

/-! ## Byte enables of part of a word -/

theorem byteEnable_partial (big : Bool) (va : Word) : byteEnable (byteLane big va) ≠ 0xF := by
  have h : ∀ l < 4, byteEnable l ≠ 0xF := by decide
  exact h _ (by unfold byteLane; split <;> omega)

theorem halfEnable_partial (big : Bool) (va : Word) : halfEnable (halfLane big va) ≠ 0xF := by
  have h : ∀ l < 3, halfEnable l ≠ 0xF := by decide
  exact h _ (by unfold halfLane; split <;> omega)

/-- `lwl` and `swl` cover the whole word only at the address of its most significant byte. -/
theorem leftShift_eq_zero_iff (big : Bool) (va : Word) : leftShift big va = 0 ↔ va.toNat % 4 = if big then 0 else 3 := by
  cases big <;> simp only [leftShift, Bool.false_eq_true, if_false, if_true]
  omega

/-- `lwr` and `swr` cover the whole word only at the address of its least significant byte. -/
theorem rightShift_eq_zero_iff (big : Bool) (va : Word) : rightShift big va = 0 ↔ va.toNat % 4 = if big then 3 else 0 := by
  cases big <;> simp only [rightShift, Bool.false_eq_true, if_false, if_true]
  omega

theorem leftEnable_partial {big : Bool} {va : Word} (h : ¬ va.toNat % 4 = if big then 0 else 3) : leftEnable (leftShift big va) ≠ 0xF := by
  have hk : ∀ k < 4, k ≠ 0 → leftEnable k ≠ 0xF := by decide
  exact hk _ (by unfold leftShift; split <;> omega) (mt (leftShift_eq_zero_iff big va).mp h)

theorem rightEnable_partial {big : Bool} {va : Word} (h : ¬ va.toNat % 4 = if big then 3 else 0) :
    rightEnable (rightShift big va) ≠ 0xF := by
  have hk : ∀ k < 4, k ≠ 0 → rightEnable k ≠ 0xF := by decide
  exact hk _ (by unfold rightShift; split <;> omega) (mt (rightShift_eq_zero_iff big va).mp h)

theorem mergeLeft_zero (w old : Word) : mergeLeft w old 0 = w := by simp [mergeLeft]

theorem mergeRight_zero (w old : Word) : mergeRight w old 0 = w := by simp [mergeRight]

/-! ## Accesses that the check refuses (R104, R131) -/

/-- An access of a function register stops if it is cached or covers part of the word. -/
theorem State.registerCheck_stops {s : State} {pa : Word} {cached : Bool} {be : BitVec 4} (h : s.mapAhead.isRegister pa = true)
    (hp : be ≠ 0xF ∨ cached = true) : s.registerCheck pa cached be = some (if cached then .frCached else .frNarrow) := by
  cases cached
  · have hbe : (be != 0xF) = true := bne_iff_ne.mpr (hp.resolve_right nofun)
    simp only [State.registerCheck, h, hbe, Bool.false_eq_true, if_false, if_true]
  · simp only [State.registerCheck, h, if_true]

/-- An uncached access of a whole word passes the check. -/
theorem State.registerCheck_word (s : State) (pa : Word) : s.registerCheck pa false 0xF = none := by
  simp [State.registerCheck]

/-- A load whose data read is refused is refused. -/
theorem State.load_refused {s : State} {va pa : Word} {cached : Bool} {be : BitVec 4} {size : Nat} {r : Refusal}
    (ht : s.translate .load va = .ok (pa, cached) s) (hd : s.dataRead pa cached be = .refused r) (hs : va.toNat % size = 0) (rt : Reg)
    (kind : LoadKind) (f : Word → Word) : s.load rt va size be kind f = .refused r := by
  simp only [State.load, State.loadWord_eq, if_pos hs, ht, Res.bind, hd, Res.outcome]

/-- A store that the check stops is refused. -/
theorem State.store_refused {s : State} {va pa : Word} {cached : Bool} {be : BitVec 4} {size : Nat} {r : Refusal}
    (ht : s.translate .store va = .ok (pa, cached) s) (hc : s.registerCheck pa cached be = some r) (hs : va.toNat % size = 0) (data : Word) :
    s.store va size data be = .refused r := by
  have hl : s.storeWord va size data be = .refused r := by
    simp only [State.storeWord, aligned, hs, ht, hc, Res.bind, decide_true, Bool.not_true, Bool.false_eq_true, if_false]
  simp only [State.store, hl, Res.bind, Res.outcome]

/-- With an empty write buffer an uncached read of part of a function register stops (D10). -/
theorem State.dataRead_narrow {s : State} {pa : Word} {be : BitVec 4} (hw : s.wb = []) (hr : s.isRegister pa = true) (hbe : be ≠ 0xF) :
    s.dataRead pa false be = .refused .frNarrow := by
  have hm : s.mapAhead.isRegister pa = true := by rw [State.mapAhead_empty hw]; exact hr
  simp only [State.dataRead, Bool.false_eq_true, if_false, State.drainAll_empty hw, Res.bind, State.registerCheck_stops hm (.inl hbe)]

/-- A cached read of a function register stops (D11). -/
theorem State.dataRead_frCached {s : State} {pa : Word} (h : s.mapAhead.isRegister pa = true) (be : BitVec 4) :
    s.dataRead pa true be = .refused .frCached := by
  simp only [State.dataRead, if_true, State.registerCheck_stops h (.inr rfl)]

/-! ## Accesses that reach the register (R104, R522) -/

/-- A read transaction of a function register gives its value, and the modules do what the read makes them do. -/
theorem State.busRead_register {s v : State} {user : BusUser} {pa w : Word} {off : Nat} {d : Dev} (h : s.target pa = .ok (.register off))
    (ht : s.transact user (.register off) 0xF false = .ok true v)
    (hd : v.dev.frRead s.board.variant off (s.free tagWriteOnly) (s.free tagTorn) = some (w, d)) (e : Exc) :
    s.busRead user pa 0xF e = .ok w { s with dev := d.settle (s.free tagChi) } := by
  obtain ⟨x, rfl⟩ : ∃ x, v = { s with dev := x } := ⟨_, State.transact_eq.1 _ ht⟩
  have hd' : x.frRead s.board.variant off (State.free { s with dev := x } tagWriteOnly) (State.free { s with dev := x } tagTorn) =
    some (w, d) := hd
  simp only [State.busRead, h, ht, Res.bind, hd', bne_self_eq_false, Bool.not_true, Bool.false_eq_true, if_false]
  rfl

/-- A write transaction of a whole word writes the register and changes nothing outside the modules. -/
theorem State.busWrite_register {s v : State} {e : WbEntry} {off : Nat} {d : Dev} (h : s.target e.pa = .ok (.register off)) (he : e.be = 0xF)
    (ht : s.transact .buffer (.register off) e.be true = .ok true v)
    (hd : v.dev.frWrite s.board.variant off e.data (s.free tagOverrun) = .ok d) :
    s.busWrite e = .ok () { s with dev := d.settle (s.free tagChi) } := by
  obtain ⟨x, rfl⟩ : ∃ x, v = { s with dev := x } := ⟨_, State.transact_eq.1 _ ht⟩
  have hd' : x.frWrite s.board.variant off e.data (State.free { s with dev := x } tagOverrun) = .ok d := hd
  have hbe : (e.be != 0xF) = false := by rw [he]; rfl
  simp only [State.busWrite, h, ht, Res.bind, hd', hbe, Bool.not_true, Bool.false_eq_true, if_false]
  rfl

/-- A load that needs the whole word of a function register reads it: with an empty write buffer nothing but the register's own effects comes
before the word. -/
theorem ReadsWord.register {s v : State} {va pa w : Word} {off : Nat} {d : Dev} (hw : s.wb = []) (hv : s.translate .load va = .ok (pa, false) s)
    (h : s.target (wordAddr pa) = .ok (.register off)) (ht : s.transact .core (.register off) 0xF false = .ok true v)
    (hd : v.dev.frRead s.board.variant off (s.free tagWriteOnly) (s.free tagTorn) = some (w, d)) :
    ReadsWord s va 0xF w { s with dev := d.settle (s.free tagChi) } := by
  refine ⟨pa, false, hv, ?_⟩
  simp only [State.dataRead, Bool.false_eq_true, if_false, State.drainAll_empty hw, Res.bind, State.registerCheck_word]
  exact State.busRead_register h ht hd _

/-- What a load leaves of the machine that its data read left. -/
theorem Loads.frame {i : Instr} {s u : State} {rt : Reg} {v : Word} (h : Loads i s u rt v) :
    ∃ t, exec i s = .next t ∧ WritesReg s t rt v ∧ KeepsAcc s t ∧ Keeps u t ∧ Advances s t := by
  obtain ⟨t, hx, hr, hacc, hk, -, -, -, -, hadv⟩ := h
  exact ⟨t, hx, hr, hacc, hk, hadv⟩

/-- Settles O26: the byte enables and the cached bit decide between the check, which stops the access, and the transaction. -/
theorem functionRegisterAccess : Obligations.FunctionRegisterAccess := by
  refine ⟨?_, ?_, fun s u e off d ht he hv hd => State.busWrite_register ht he hv hd⟩
  · intro s u rs rt imm pa off va left right reads hw hv hr ht
    have hword : s.transact .core (.register off) 0xF false = .ok true u → ∀ w d,
        u.dev.frRead s.board.variant off (s.free tagWriteOnly) (s.free tagTorn) = some (w, d) →
        ReadsWord s va 0xF w { s with dev := d.settle (s.free tagChi) } := fun hu w d hd => .register hw hv ht hu hd
    have hnarrow {be : BitVec 4} {size : Nat} (hbe : be ≠ 0xF) := State.load_refused (size := size) hv (State.dataRead_narrow hw hr hbe)
    refine ⟨fun hs hu w d hd => ?_, fun hl hu w d hd => ?_, fun hl hu w d hd => ?_, fun hl => ?_, fun hl => ?_, ?_, ?_, fun hs => ⟨?_, ?_⟩⟩
    · exact (Loads.of_load (hword hu w d hd) (exec_lw ..) hs).frame
    · have hi := exec_lwl s rs rt imm
      rw [(leftShift_eq_zero_iff _ _).mpr hl] at hi
      rw [← mergeLeft_zero w (s.mergeReg rt .left)]
      exact (Loads.of_load (hword hu w d hd) hi (Nat.mod_one _)).frame
    · have hi := exec_lwr s rs rt imm
      rw [(rightShift_eq_zero_iff _ _).mpr hl] at hi
      rw [← mergeRight_zero w (s.mergeReg rt .right)]
      exact (Loads.of_load (hword hu w d hd) hi (Nat.mod_one _)).frame
    · exact hnarrow (leftEnable_partial hl) (Nat.mod_one _) ..
    · exact hnarrow (rightEnable_partial hl) (Nat.mod_one _) ..
    · exact hnarrow (byteEnable_partial _ _) (Nat.mod_one _) ..
    · exact hnarrow (byteEnable_partial _ _) (Nat.mod_one _) ..
    · exact hnarrow (halfEnable_partial _ _) hs ..
    · exact hnarrow (halfEnable_partial _ _) hs ..
  · intro s rs rt imm pa cached va left right stop hr
    refine ⟨fun hv => ?_, fun hv => ?_⟩
    · have hstop {be : BitVec 4} {size : Nat} (hp : be ≠ 0xF ∨ cached = true) :=
        State.store_refused (size := size) hv (State.registerCheck_stops hr hp)
      refine ⟨?_, fun hs => ?_, fun hl => ?_, fun hl => ?_, fun hs hc => ?_⟩
      · exact hstop (.inl (byteEnable_partial _ _)) (Nat.mod_one _) _
      · exact hstop (.inl (halfEnable_partial _ _)) hs _
      · exact hstop (hl.imp_left leftEnable_partial) (Nat.mod_one _) _
      · exact hstop (hl.imp_left rightEnable_partial) (Nat.mod_one _) _
      · rw [exec_sw, hstop (.inr hc) hs, if_pos hc]
    · have hcached {be : BitVec 4} {size : Nat} := State.load_refused (size := size) hv (State.dataRead_frCached hr be)
      simp only [List.forall_mem_cons, List.not_mem_nil, false_imp_iff, implies_true, and_true]
      exact ⟨⟨hcached (Nat.mod_one _) .., hcached (Nat.mod_one _) .., hcached (Nat.mod_one _) .., hcached (Nat.mod_one _) ..⟩,
        fun hs => ⟨hcached hs .., hcached hs ..⟩, fun hs => hcached hs ..⟩

end Sys2Proof.Machine
end

section
/-!
SUPPORT and PROOFS. The data cache after a store, and the write of an entry into memory (O27, O28).
-/

namespace Sys2Proof.Machine

/-! ## The words of the data cache -/

theorem dIndex_toNat (full : Bool) (a : Word) : (dIndex full a).toNat = a.toNat / 4 % (if full then 128 else 64) := by
  cases full
  · show ((0#1 ++ a.extractLsb' 2 6 : BitVec (1 + 6))).toNat = _
    rw [BitVec.toNat_append]
    simp [BitVec.extractLsb'_toNat, Nat.shiftRight_eq_div_pow]
  · simp [dIndex, BitVec.extractLsb'_toNat, Nat.shiftRight_eq_div_pow]

/-- The set number and the tag of a place tell its word from every other, in both sizes of the data cache (R52). -/
theorem wordNumber_ext {full : Bool} {p q : Word} (hi : dIndex full p = dIndex full q) (ht : dTag p = dTag q) :
    p.extractLsb' 2 30 = (q.extractLsb' 2 30 : BitVec 30) := by
  apply BitVec.eq_of_toNat_eq
  have hindex : p.toNat / 4 % (if full then 128 else 64) = q.toNat / 4 % (if full then 128 else 64) := by
    rw [← dIndex_toNat, ← dIndex_toNat, hi]
  have hlow : p.toNat / 4 % 64 = q.toNat / 4 % 64 := by split at hindex <;> omega
  have htag := congrArg BitVec.toNat ht
  simp only [dTag, BitVec.extractLsb'_toNat, Nat.shiftRight_eq_div_pow] at htag ⊢
  omega

/-- A way after a change shows the same word of `q`: it is as before, or does not hold that word, before and after. -/
def DLine.AlikeFor (q : Word) (l l' : Option DLine) : Prop := l' = l ∨ (DLine.hits l q = false ∧ DLine.hits l' q = false)

theorem DLine.hits_other {l : Option DLine} {p q : Word} (h : DLine.hits l p = true) (ht : dTag p ≠ dTag q) : DLine.hits l q = false := by
  cases l with
  | none => rfl
  | some l =>
    have hl : l.tag = dTag p := eq_of_beq h
    exact beq_eq_false_iff_ne.mpr (hl ▸ ht)

/-- A change of the set of `p` that shows the words of other tags as before leaves every other word of the cache. -/
theorem dLookup_dPut_other {full : Bool} {c : Vector DSet 128} {p q : Word} {d : DSet} (hne : q.extractLsb' 2 30 ≠ (p.extractLsb' 2 30 : BitVec 30))
    (h : dTag p ≠ dTag q → DLine.AlikeFor q (dSet full c p).way0 d.way0 ∧ DLine.AlikeFor q (dSet full c p).way1 d.way1) :
    dLookup full (dPut full c p d) q = dLookup full c q := by
  unfold dLookup
  rw [dSet_dPut]
  by_cases hi : dIndex full q = dIndex full p
  · have hs : dSet full c q = dSet full c p := by simp only [dSet, hi]
    obtain ⟨h0, h1⟩ := h fun ht => hne (wordNumber_ext hi ht.symm)
    rw [if_pos hi, hs]
    dsimp only
    rcases h0 with h0 | ⟨h0, h0'⟩ <;> rcases h1 with h1 | ⟨h1, h1'⟩ <;> simp only [*, Bool.false_eq_true, if_false]
  · rw [if_neg hi]

theorem dLookup_hits {full : Bool} {c : Vector DSet 128} {p w : Word} (h : dLookup full c p = some w) :
    DLine.hits (dSet full c p).way0 p = true ∨ DLine.hits (dSet full c p).way1 p = true := by
  unfold dLookup at h
  dsimp only at h
  split at h
  case isTrue h0 => exact .inl h0
  case isFalse =>
    split at h
    case isTrue h1 => exact .inr h1
    case isFalse => cases h

/-- A word that the cache holds becomes `v`. -/
theorem dLookup_dReplace_self {full : Bool} {c : Vector DSet 128} {p w : Word} (h : dLookup full c p = some w) (v : Word) :
    dLookup full (dReplace full c p v) p = some v := by
  have ha : dAllocate full c p v false = dReplace full c p v := by
    unfold dAllocate
    exact if_pos (by simpa only [Bool.or_eq_true] using dLookup_hits h)
  rw [← ha, dLookup_dAllocate_self]

theorem dLookup_dReplace_other {full : Bool} {p q : Word} (hne : q.extractLsb' 2 30 ≠ (p.extractLsb' 2 30 : BitVec 30))
    (c : Vector DSet 128) (v : Word) : dLookup full (dReplace full c p v) q = dLookup full c q := by
  have hl (ht : dTag p ≠ dTag q) : DLine.hits (some { tag := dTag p, word := v }) q = false := beq_eq_false_iff_ne.mpr ht
  unfold dReplace
  dsimp only
  split
  case isTrue h0 => exact dLookup_dPut_other hne fun ht => ⟨.inr ⟨DLine.hits_other h0 ht, hl ht⟩, .inl rfl⟩
  case isFalse =>
    split
    case isTrue h1 => exact dLookup_dPut_other hne fun ht => ⟨.inl rfl, .inr ⟨DLine.hits_other h1 ht, hl ht⟩⟩
    case isFalse => rfl

/-- What a way holds after the word of `p` has left it. -/
theorem DLine.hits_dropped (l : Option DLine) (p : Word) : DLine.hits (if DLine.hits l p then none else l) p = false := by
  split
  case isTrue => rfl
  case isFalse h => exact Bool.eq_false_iff.mpr h

theorem DLine.alikeFor_dropped {p q : Word} (ht : dTag p ≠ dTag q) (l : Option DLine) :
    DLine.AlikeFor q l (if DLine.hits l p then none else l) := by
  split
  case isTrue h => exact .inr ⟨DLine.hits_other h ht, rfl⟩
  case isFalse => exact .inl rfl

theorem dLookup_dDrop_self (full : Bool) (c : Vector DSet 128) (p : Word) : dLookup full (dDrop full c p) p = none := by
  unfold dLookup dDrop
  rw [dSet_dPut, if_pos rfl]
  simp only [DLine.hits_dropped, Bool.false_eq_true, if_false]

theorem dLookup_dDrop_other {full : Bool} {p q : Word} (hne : q.extractLsb' 2 30 ≠ (p.extractLsb' 2 30 : BitVec 30)) (c : Vector DSet 128) :
    dLookup full (dDrop full c p) q = dLookup full c q :=
  dLookup_dPut_other hne fun ht => ⟨DLine.alikeFor_dropped ht _, DLine.alikeFor_dropped ht _⟩

/-! ## A store that finds its word in the data cache (R125) -/

/-- The word of the place `a`, which the data cache holds, becomes `v`, or leaves it. -/
def State.withPlace (s : State) (a : Word) : Option Word → State
  | some v => { s with dcache := dReplace s.board.dKbyte s.dcache a v }
  | none => s.dropPlace a

theorem State.withPlace_self {s : State} {pa a w : Word} {dev : Attach} (hp : s.place pa = some (a, dev))
    (hw : dLookup s.board.dKbyte s.dcache a = some w) (o : Option Word) : (s.withPlace a o).cachedWord pa = o := by
  have hp' : (s.withPlace a o).place pa = some (a, dev) := by rw [← hp]; cases o <;> rfl
  rw [State.cachedWord, hp']
  cases o with
  | none => exact dLookup_dDrop_self ..
  | some v => exact dLookup_dReplace_self hw v

theorem State.withPlace_other {s : State} {q a : Word}
    (hne : ∀ b dev, s.place q = some (b, dev) → b.extractLsb' 2 30 ≠ (a.extractLsb' 2 30 : BitVec 30)) (o : Option Word) :
    (s.withPlace a o).cachedWord q = s.cachedWord q := by
  have hp' : (s.withPlace a o).place q = s.place q := by cases o <;> rfl
  rw [State.cachedWord, State.cachedWord, hp']
  cases hq : s.place q with
  | none => rfl
  | some p =>
    cases o with
    | none => exact dLookup_dDrop_other (hne p.1 p.2 hq) _
    | some v => exact dLookup_dReplace_other (hne p.1 p.2 hq) _ v

/-- A store that finds its word updates it where it is cached and the place takes it; an uncached one leaves it, updates it or drops it
(N20-2). -/
theorem State.cacheStore_hit {s : State} {pa a w : Word} {dev : Attach} (hp : s.place pa = some (a, dev))
    (hw : dLookup s.board.dKbyte s.dcache a = some w) (data : Word) (be : BitVec 4) (cached : Bool) :
    ∃ o, s.cacheStore pa data be cached = s.withPlace a o ∧
      if cached then o = some (if dev = .ram then mergeLanes w data be else w) else o ∈ [some w, some (mergeLanes w data be), none] := by
  refine ⟨if cached then some (if dev = .ram then mergeLanes w data be else w)
    else s.choose tagUncached (some w) [some (mergeLanes w data be), none], ?_, ?_⟩
  · simp only [State.cacheStore, hp, hw]
    rfl
  · cases cached
    · exact s.choose_mem tagUncached (some w) [some (mergeLanes w data be), none]
    · rfl

/-- The lanes that a store writes into a word. -/
theorem byteOf_mergeLanes (w data : Word) (be : BitVec 4) {j : Nat} (hj : j < 4) :
    byteOf (mergeLanes w data be) j = if be.getLsbD j then byteOf data j else byteOf w j := by
  have hm : ∀ be : BitVec 4, ∀ j < 4, ∀ i < 8, (laneMask be).getLsbD (8 * j + i) = be.getLsbD j := by decide
  apply BitVec.eq_of_getLsbD_eq
  intro i hi
  have hlt : 8 * j + i < 32 := by omega
  simp only [byteOf, mergeLanes, maskedWrite, BitVec.getLsbD_extractLsb', BitVec.getLsbD_or, BitVec.getLsbD_and, BitVec.getLsbD_not,
    hm be j hj i hi, hi, hlt, decide_true, Bool.true_and]
  cases be.getLsbD j <;> simp [hi]

/-- Settles O27: with space in the write buffer a store does not wait, and in the data cache it reaches the word of its place alone. -/
theorem storesEnterWriteBuffer : Obligations.StoresEnterWriteBuffer := by
  refine ⟨fun s rs rt imm pa cached h => .of_makeRoom (State.makeRoom_space h) rs rt imm pa cached, ?_⟩
  intro s pa data be cached t wordOf
  refine ⟨fun p hne => ?_, fun hm => State.cacheStore_miss hm data be cached, fun w hw => ?_⟩
  · cases hm : s.cachedWord pa with
    | none => rw [show t = s from State.cacheStore_miss hm data be cached]
    | some w =>
      obtain ⟨⟨a, dev⟩, hp, hl⟩ := Option.bind_eq_some_iff.mp hm
      obtain ⟨o, ho, -⟩ := State.cacheStore_hit hp hl data be cached
      rw [show t = s.withPlace a o from ho]
      refine State.withPlace_other (fun b x hb hab => hne ?_) o
      simp only [wordOf, hb, hp, Option.map_some, hab]
  · obtain ⟨⟨a, dev⟩, hp, hl⟩ := Option.bind_eq_some_iff.mp hw
    obtain ⟨o, ho, hcase⟩ := State.cacheStore_hit hp hl data be cached
    have hself : t.cachedWord pa = o := by rw [show t = s.withPlace a o from ho, State.withPlace_self hp hl]
    have hstored : o = some (mergeLanes w data be) →
        ∃ v, t.cachedWord pa = some v ∧ ∀ j < 4, byteOf v j = if be.getLsbD j then byteOf data j else byteOf w j :=
      fun h => ⟨_, hself.trans h, fun j hj => byteOf_mergeLanes w data be hj⟩
    intro stored
    cases cached with
    | true =>
      simp only [if_true] at hcase
      simp only [if_true, hp, Option.map_some, Option.some.injEq]
      by_cases hr : dev = .ram
      · rw [if_pos hr]
        exact hstored (by rw [hcase, if_pos hr])
      · rw [if_neg hr, hself, hcase, if_neg hr]
    | false =>
      simp only [Bool.false_eq_true, if_false, List.mem_cons, List.not_mem_nil, or_false] at hcase ⊢
      rcases hcase with h | h | h
      · exact .inr (.inl (hself.trans h))
      · exact .inl (hstored h)
      · exact .inr (.inr (hself.trans h))

/-! ## A write of memory (R102, R120) -/

/-- Every byte of memory after the enabled lanes of an entry have been stored from `key` on. -/
theorem WbEntry.read_writeLanes (e : WbEntry) {m : Mem} (h : m.wf = true) (big : Bool) (key a : Nat) :
    (m.writeLanes big key e.data e.be).read a =
      if key ≤ a ∧ a < key + 4 then (e.byteAt big (a - key)).getD (m.read a) else m.read a := by
  by_cases ha : key ≤ a ∧ a < key + 4
  · have hl : laneAt big (a - key) < 4 := laneAt_lt big (by omega)
    have hcell : a = laneCell big key (laneAt big (a - key)) := by unfold laneCell laneAt; split <;> omega
    rw [if_pos ha, WbEntry.byteAt_eq]
    conv_lhs => rw [hcell, Mem.read_writeLanes_lane m big key e.data e.be _ hl h, ← hcell]
    split <;> rfl
  · rw [if_neg ha, Mem.read_writeLanes_outside _ _ _ _ _ _ (by omega) h]

/-- Settles O28: the acknowledged transaction stores the enabled lanes at their cells. -/
theorem writeReachesMemory : Obligations.WriteReachesMemory := by
  intro s v e r key hwf ht hv
  obtain ⟨d, rfl⟩ : ∃ d, v = { s with dev := d } := ⟨_, State.transact_eq.1 _ hv⟩
  exact ⟨_, (State.busWrite_cells ht hv).trans (by rw [if_pos rfl]), rfl, fun a => e.read_writeLanes hwf s.board.bigEndian key a⟩

end Sys2Proof.Machine
end

section
/-!
SUPPORT and PROOFS. What the write buffer holds while it drains, what an instruction after a store sees, and the word stored last read
back (O30).
-/

namespace Sys2Proof.Machine

/-! ## Draining in two parts (R120, R121) -/

theorem Res.bind_assoc {α β γ : Type} (r : Res α) (f : α → State → Res β) (g : β → State → Res γ) :
    (r.bind f).bind g = r.bind fun a s => (f a s).bind g := by
  cases r <;> rfl

theorem State.drain_empty {s : State} (h : s.wb = []) (n : Nat) : State.drain n s = .ok () s := by
  cases n <;> simp [State.drain, h]

theorem State.drain_add (m n : Nat) (s : State) : State.drain (m + n) s = (State.drain m s).bind fun _ t => State.drain n t := by
  induction m generalizing s with
  | zero => rw [Nat.zero_add]; rfl
  | succ m ih =>
    rw [Nat.add_right_comm]
    by_cases h : s.wb = []
    · simp only [State.drain_empty h, Res.bind]
    · have hne : s.wb.isEmpty = false := List.isEmpty_eq_false_iff.mpr h
      simp only [State.drain, hne, Bool.false_eq_true, if_false, Res.bind_assoc, ih]

/-- The oldest entries are performed first: the others stay. -/
theorem State.drain_wb {n : Nat} {s t : State} (h : State.drain n s = .ok () t) : t.wb = s.wb.drop n := by
  induction n generalizing s with
  | zero => cases h; rfl
  | succ n ih =>
    by_cases he : s.wb = []
    · rw [State.drain_empty he] at h
      cases h
      rw [he, List.drop_nil]
    · have hne : s.wb.isEmpty = false := List.isEmpty_eq_false_iff.mpr he
      simp only [State.drain, hne, Bool.false_eq_true, if_false] at h
      obtain ⟨_, v, hv, ht⟩ := Res.bind_eq_ok h
      rw [ih ht, (s.drainOne_frame.2 v hv).1, List.drop_tail]

/-! ## What the next instruction sees -/

/-- Right after an instruction that is no load every operand is its register. -/
theorem State.retire_plain_opReg (s : State) (r : Reg) : (s.retire .plain).opReg r = s.reg r := by
  rw [State.opReg_of_not_loaded, State.retire_reg]
  intro rt old k ts h
  have hlen : s.traceLength = (s.traceLength - 1) + 1 := by
    have h2 : 2 ≤ s.traceLength := Nat.le_max_left _ _
    omega
  rw [State.retire_recent, hlen, List.take_succ_cons] at h
  cases h

/-- An instruction that does not write Status leaves it settled. -/
theorem StatusSettled.retire {s : State} (h : StatusSettled s) {t : Trace} (ht : ∀ old, t ≠ .cp0 (.status old)) :
    StatusSettled (s.retire t) := by
  intro old hm
  rw [State.retire_window] at hm
  cases hn : s.board.hazardSlots with
  | zero => rw [hn] at hm; cases hm
  | succ n =>
    rw [hn, List.take_succ_cons, ← List.map_take, List.mem_cons] at hm
    rcases hm with hm | hm
    · exact ht old hm.symm
    · obtain ⟨x, hx, hxt⟩ := List.mem_map.mp hm
      rw [Trace.settle_cp0 hxt] at hx
      exact h old (by rw [State.window, hn]; exact List.take_subset_take_left _ (Nat.le_succ n) hx)

/-! ## Reading back the last entry -/

theorem wordAddr_of_aligned {a : Word} (h : a.toNat % 4 = 0) : wordAddr a = a := by
  have hm : ∀ i < 32, 2 ≤ i → (0xFFFFFFFC : Word).getLsbD i = true := by decide
  apply BitVec.eq_of_getLsbD_eq
  intro i hi
  rw [wordAddr, BitVec.getLsbD_and]
  by_cases h2 : 2 ≤ i
  · rw [hm i hi h2, Bool.and_true]
  · have hz : a.getLsbD i = false := by
      rw [getLsbD_eq_decide_div, decide_eq_false_iff_not]
      interval_cases i <;> omega
    rw [hz, Bool.false_and]

/-- The bus is free and stays with the step, no external master has or asks for it, and the memory interface is awake: what
`State.transact_bank` asks for. -/
structure State.BusIdle (s : State) : Prop where
  held : s.dev.biu.held = none
  turn : s.dev.biu.turn = .whole
  request : s.dev.busRequest = false
  granted : s.dev.granted = false
  awake : s.dev.biu.powerDown = false

/-- A transaction on the idle bus with a bank of memory completes, leaves the bus idle and the map as it was, and changes nothing else outside
the modules. -/
theorem State.BusIdle.transact {s : State} (h : s.BusIdle) (u : BusUser) (second : Bool) (key : Nat) (a : Attach) (be : BitVec 4)
    (write : Bool) :
    ∃ v, s.transact u (.cells (.bank second) key a) be write = .ok true v ∧ v = { s with dev := v.dev } ∧ v.BusIdle ∧
      (∀ pa, v.target pa = s.target pa) ∧ ∀ pa, v.isRegister pa = s.isRegister pa := by
  obtain ⟨w, y, z, hv⟩ := State.transact_bank (u := u) (second := second) (key := key) (a := a) h.held h.turn h.request h.granted h.awake
    be write
  exact ⟨_, hv, rfl, ⟨rfl, h.turn, h.request, h.granted, h.awake⟩, fun _ => rfl, fun _ => rfl⟩

/-- The last entry of the write buffer, which awake memory takes: its bytes are stored, the buffer is empty, the bus is idle again, and the
map is as it was. -/
theorem State.BusIdle.drainOne {d : State} (hi : d.BusIdle) {e : WbEntry} {second : Bool} {key : Nat} (hw : d.wb = [e])
    (ht : d.target e.pa = .ok (.cells (.bank second) key .ram)) :
    ∃ u, d.drainOne = .ok () u ∧ u.wb = [] ∧ u.mem = d.mem.writeLanes d.board.bigEndian key e.data e.be ∧ u.board = d.board ∧ u.BusIdle ∧
      (∀ pa, u.target pa = d.target pa) ∧ ∀ pa, u.isRegister pa = d.isRegister pa := by
  obtain ⟨v, hv, heq, hvi, hvt, hvr⟩ := hi.transact .buffer second key .ram e.be true
  have hb : d.busWrite e = .ok () (v.storeCells key e.data e.be) := (State.busWrite_cells ht hv).trans (by rw [if_pos rfl])
  refine ⟨{ v.storeCells key e.data e.be with wb := [] }, ?_, rfl, ?_, ?_, ?_, hvt, hvr⟩
  · simp only [State.drainOne, hw, hb, Res.bind]
  · rw [heq]
    rfl
  · rw [heq]
    rfl
  · exact ⟨hvi.held, hvi.turn, hvi.request, hvi.granted, hvi.awake⟩

/-- An uncached read of the word that the last entry stores waits for the whole write buffer and gives the word of the entry (R121). -/
theorem State.dataRead_lastEntry {t d : State} {es : List WbEntry} {e : WbEntry} {second : Bool} {key : Nat} (hm : t.mem.wf = true)
    (hw : t.wb = es ++ [e]) (hbe : e.be = 0xF) (hpa : e.pa.toNat % 4 = 0) (hd : State.drain es.length t = .ok () d) (hi : d.BusIdle)
    (hr : d.isRegister e.pa = false) (ht : d.target e.pa = .ok (.cells (.bank second) key .ram)) :
    ∃ v, t.dataRead e.pa false 0xF = .ok e.data v ∧ v.wb = [] := by
  have hdw : d.wb = [e] := by rw [State.drain_wb hd, hw, List.drop_left]
  have hdm : d.mem.wf = true := by
    have h := (State.drain_frame es.length t).1
    rw [hd] at h
    exact h.mem hm
  obtain ⟨u, hu, huw, hum, hub, hui, hut, hur⟩ := hi.drainOne hdw ht
  have hall : t.drainAll = .ok () u := by
    have h1 : State.drain 1 d = .ok () u := by
      simp only [State.drain, hdw, List.isEmpty_cons, Bool.false_eq_true, if_false, hu, Res.bind]
    rw [State.drainAll, hw, List.length_append, List.length_singleton, State.drain_add, hd]
    exact h1
  obtain ⟨v, hv, heq, -⟩ := hui.transact .core second key .ram 0xF false
  have htu : u.target (wordAddr e.pa) = .ok (.cells (.bank second) key .ram) := by rw [wordAddr_of_aligned hpa, hut, ht]
  refine ⟨v, ?_, by rw [heq]; exact huw⟩
  rw [State.dataRead_uncached hall (by rw [hur, hr]) htu nofun hv, hum, hub, hbe, Mem.readWord_writeLanes _ _ _ _ hdm]

/-- Settles O30: the load finds the store last in the write buffer, and reads its word back. -/
theorem storeThenLoad : Obligations.StoreThenLoad := by
  intro s t d rs rt rd imm second key va pa hwf hlen hs hk hrs hseg hal hx hd hr ht hheld hturn hreq hgr hpd
  have htop : va.toNat / 2 ^ 29 = 5 := by
    have h := congrArg BitVec.toNat hseg
    rw [BitVec.extractLsb'_toNat, Nat.shiftRight_eq_div_pow] at h
    have hva := va.isLt
    change _ = 5 at h
    omega
  have hkseg1 : segmentOf va = .direct pa false := by
    rw [segmentOf_unmapped (by omega) (by omega), decide_eq_false (by omega)]
  have hpa : pa.toNat % 4 = 0 := by
    have hm : pa.toNat = va.toNat % 2 ^ 29 := by
      rw [BitVec.toNat_and]
      exact Nat.and_two_pow_sub_one_eq_mod _ 29
    omega
  have hstores : StoresCells s va pa false 0xF :=
    ⟨State.translate_direct ((hs.userMode _).trans hk) hkseg1, s.registerCheck_word pa⟩
  have hstate := (exec_sw s rs rt imm).symm.trans hx
  rw [State.store_cells hstores hal _ (State.makeRoom_space hlen), wordAddr_of_aligned hpa] at hstate
  injection hstate with hstate
  have hwb : t.wb = s.wb ++ [⟨pa, s.opReg rt, 0xF⟩] := by rw [← hstate]; simp
  have hmem : t.mem.wf = true := by rw [← hstate]; simpa using hwf
  have hreg : ∀ r, t.reg r = s.reg r := fun r => by rw [← hstate]; simp
  have hva : t.effAddr rs imm = va := by
    rw [State.effAddr, ← hstate, State.retire_plain_opReg, State.append_reg, State.cacheStore_reg, ← hrs]
    rfl
  have hts : StatusSettled t := by
    have hf : StatusSettled ((s.cacheStore pa (s.opReg rt) 0xF false).append ⟨pa, s.opReg rt, 0xF⟩) := fun old => by
      simpa [State.window] using hs old
    rw [← hstate]
    exact hf.retire nofun
  have htk : t.cp0.status.getLsbD 1 = false := by rw [← hstate]; simpa using hk
  obtain ⟨v, hv, hvw⟩ := State.dataRead_lastEntry hmem hwb rfl hpa hd ⟨hheld, hturn, hreq, hgr, hpd⟩ hr ht
  have hreads : ReadsWord t va 0xF (s.opReg rt) v :=
    ⟨pa, false, State.translate_direct ((hts.userMode _).trans htk) hkseg1, hv⟩
  have hlw := exec_lw t rs rd imm
  rw [hva] at hlw
  obtain ⟨u, hu, hw, -, hkeep, hadv⟩ := (Loads.of_load hreads hlw hal).frame
  exact ⟨u, hu, fun r => by rw [hw r, hreg r], hkeep.wb.trans hvw, hadv.1⟩

end Sys2Proof.Machine
end

section
/-!
SUPPORT and PROOFS. The four images of a memory bank (O51).
-/

namespace Sys2Proof.Machine

/-! ## The images of a bank (R187) -/

/-- Where the four images of the first 64 Mbytes begin. -/
def imageBases : List Nat := [0, 0x04000000, 0x40000000, 0x44000000]

/-- With ENCS1DRAM = 0 an address of the first 64 Mbytes selects the same bank in every image (R183, R187): the lower 32 Mbytes bank 0, the
upper bank 1. -/
theorem regionOf_image {mc0 : Word} (hc : mc0.getLsbD 20 = false) (mc3 : Word) {pa base : Nat} (hp : pa < 0x04000000)
    (hb : base ∈ imageBases) : regionOf mc0 mc3 (pa + base) = .bank (decide (0x02000000 ≤ pa)) := by
  have hbank : ∀ second, bankOrCs1 mc0 second = .bank second := fun second => by
    simp only [bankOrCs1, bitOf, hc, Bool.false_eq_true, if_false]
  simp only [imageBases, List.mem_cons, List.not_mem_nil, or_false] at hb
  unfold regionOf
  simp only [hbank]
  by_cases hs : 0x02000000 ≤ pa
  · rw [decide_eq_true hs]
    rcases hb with rfl | rfl | rfl | rfl <;> simp (disch := omega) only [if_pos, if_neg]
  · rw [decide_eq_false hs]
    rcases hb with rfl | rfl | rfl | rfl <;> simp (disch := omega) only [if_pos, if_neg]

/-- Every image of an address has its cell: the images lie whole windows of 32 Mbytes apart. -/
theorem cellOf_image (b : Board) (second : Bool) (pa : Nat) {base : Nat} (hb : base ∈ imageBases) :
    cellOf b (.bank second) (pa + base) = cellOf b (.bank second) pa := by
  have hwindows : ∀ base ∈ imageBases, 0x02000000 ∣ base := by decide
  obtain ⟨n, rfl⟩ := hwindows base hb
  simp only [cellOf, Nat.add_mul_mod_self_left]

/-- Settles O51: an address selects its bank in every image, and the cell in the bank is one for all of them. -/
theorem bankImages : Obligations.BankImages := by
  intro b mc0 mc3 pa hp hc at'
  have himage : ∀ base ∈ imageBases, at' (pa + base) = cellOf b (.bank (decide (0x02000000 ≤ pa))) pa := fun base hb => by
    simp only [at', regionOf_image hc mc3 hp hb, cellOf_image b _ pa hb]
  have hfirst : at' pa = _ := himage 0 (by decide)
  rw [himage 0x04000000 (by decide), himage 0x40000000 (by decide), himage 0x44000000 (by decide), hfirst]
  exact ⟨rfl, rfl, rfl, rfl⟩

end Sys2Proof.Machine
end

section
/-!
SUPPORT and PROOFS. What a transaction makes of the address map, and the transaction that nothing acknowledges (O52).
-/

namespace Sys2Proof.Machine

/-! ## A transaction that starts on a free bus -/

/-- Starting a transaction leaves the check of the regions alone: it reads other bits of Memory Configuration 4 than MEMPOWERDOWN. -/
theorem Biu.start_check (b : Biu) (u : BusUser) (t : Target) (board : Board) (r : Region) :
    (b.start u t).check board r = b.check board r := by
  cases r with
  | bank second =>
    have hset : ∀ v row hdram, (b.start u t).bankSet v second row hdram = b.bankSet v second row hdram := fun v row hdram => by
      have hbit : bitOf (b.start u t).mc4 (if second then 31 else 30) = bitOf b.mc4 (if second then 31 else 30) :=
        Biu.start_mc4 b u t _ (by cases second <;> decide)
      rw [Biu.bankSet, hbit]
      rfl
    have hready : ∀ sdram, (b.start u t).bankReady second sdram = b.bankReady second sdram := fun _ => rfl
    simp only [Biu.check, Biu.bankCheck, hset, hready]
  | _ => rfl

/-- An address reaches the same target once a transaction has started. -/
theorem State.startBus_target (s : State) (u : BusUser) (t : Target) (be : BitVec 4) (write : Bool) (pa : Word) :
    (s.startBus u t be write).target pa = s.target pa := by
  simp only [State.target, State.startBus_biu, State.startBus_board, Biu.start_check]
  rfl

/-- Ending a transaction leaves Memory Configuration 4 alone. -/
theorem State.endBus_mc4 (s : State) : s.endBus.dev.biu.mc4 = s.dev.biu.mc4 := by rw [State.endBus_biu]

/-- On a bus that is free and not given up by the step a transaction starts, and what answers it is asked at once. -/
theorem State.transact_free {s : State} (hh : s.dev.biu.held = none) (ho : s.dev.biu.turn ≠ .over) (hg : s.dev.granted = false)
    (u : BusUser) (t : Target) (be : BitVec 4) (write : Bool) : s.transact u t be write = (s.startBus u t be write).acknowledge t := by
  have hf : s.dev.busFree u = true := by simp [Dev.busFree, ho, hh, hg]
  simp [State.transact, hf, hh]

/-- The user that holds the bus goes on with its transaction. -/
theorem State.transact_held {s : State} {u : BusUser} (hh : s.dev.biu.held = some u) (ho : s.dev.biu.turn ≠ .over) (t : Target)
    (be : BitVec 4) (write : Bool) : s.transact u t be write = s.acknowledge t := by
  have hf : s.dev.busFree u = true := by simp [Dev.busFree, ho, hh]
  simp [State.transact, hf, hh]

/-! ## Where nothing answers (R188, R242) -/

/-- Nothing acknowledges there: the transaction ends with the watch dog, or goes on. -/
theorem State.acknowledge_silent (s : State) :
    s.acknowledge .silent = if s.dev.biu.timedOut then .ok false s.endBus else .wait s := by
  simp [State.acknowledge, Dev.acks]

/-- The watch dog, where it is enabled, has run down by the end of such a transaction. -/
theorem Biu.start_silent_timedOut (b : Biu) (u : BusUser) : (b.start u .silent).timedOut = b.enWatch := by
  have he : (b.start u .silent).enWatch = b.enWatch := Biu.start_mc4 b u .silent 24 (by decide)
  rw [Biu.timedOut, he]
  cases h : b.enWatch <;> simp [Biu.start, h]

section
variable {s : State} {u : BusUser} (hh : s.dev.biu.held = none) (ho : s.dev.biu.turn ≠ .over) (hg : s.dev.granted = false)
include hh ho hg

/-- A transaction with a silent location: the watch dog ends it, or it waits. -/
theorem State.transact_silent (be : BitVec 4) (write : Bool) :
    s.transact u .silent be write =
      if s.dev.biu.enWatch then .ok false (s.startBus u .silent be write).endBus else .wait (s.startBus u .silent be write) := by
  rw [State.transact_free hh ho hg, State.acknowledge_silent, State.startBus_biu, Biu.start_silent_timedOut]

/-- Without the watch dog it waits, and tried again it waits in the same state. -/
theorem State.transact_silent_waits (hw : s.dev.biu.enWatch = false) (be : BitVec 4) (write : Bool) :
    ∃ t, s.transact u .silent be write = .wait t ∧ t.transact u .silent be write = .wait t ∧ t = { s with dev := t.dev } ∧
      ∀ pa, t.target pa = s.target pa := by
  refine ⟨s.startBus u .silent be write, ?_, ?_, s.startBus_eq .., fun _ => s.startBus_target ..⟩
  · rw [State.transact_silent hh ho hg, hw, if_neg Bool.false_ne_true]
  · have hheld : (s.startBus u .silent be write).dev.biu.held = some u := by rw [State.startBus_biu]; rfl
    have hturn : (s.startBus u .silent be write).dev.biu.turn ≠ .over := by rw [State.startBus_biu]; exact ho
    rw [State.transact_held hheld hturn, State.acknowledge_silent, State.startBus_biu, Biu.start_silent_timedOut, hw,
      if_neg Bool.false_ne_true]

/-- With the watch dog it is over, and CLRWRBUSERRINT is as before. -/
theorem State.transact_silent_ends (hw : s.dev.biu.enWatch = true) (be : BitVec 4) (write : Bool) :
    ∃ t, s.transact u .silent be write = .ok false t ∧ t = { s with dev := t.dev } ∧ t.dev.biu.clrWrBusErr = s.dev.biu.clrWrBusErr := by
  have h := State.transact_silent (u := u) hh ho hg be write
  rw [hw, if_pos rfl] at h
  refine ⟨_, h, State.transact_eq.1 _ h, ?_⟩
  rw [Biu.clrWrBusErr, State.endBus_mc4, State.startBus_biu]
  exact Biu.start_mc4 _ _ _ 27 (by decide)

end

/-- Settles O52: whether the watch dog is enabled decides what becomes of the transaction, and the read and the write follow it. -/
theorem silentLocations : Obligations.SilentLocations := by
  intro s e be x ht hclr hh ho hg
  split
  case isTrue hw =>
    refine ⟨?_, ?_⟩
    · obtain ⟨t, hr, hs, -⟩ := State.transact_silent_ends (u := .core) hh ho hg hw be false
      exact ⟨t, by simp only [State.busRead, ht, hr, Res.bind, Bool.not_false, if_true], hs⟩
    · obtain ⟨t, hr, hs, hc⟩ := State.transact_silent_ends (u := .buffer) hh ho hg hw e.be true
      have hset : t.dev.biu.clrWrBusErr = false := hc.trans hclr
      refine ⟨_, by simp only [State.busWrite, ht, hr, Res.bind, Bool.not_false, if_true]; rfl, ?_, ?_⟩
      · simp only [hset, Bool.not_false]
      · rw [hs]
  case isFalse hw =>
    have hoff : s.dev.biu.enWatch = false := Bool.eq_false_of_not_eq_true hw
    refine ⟨?_, ?_⟩
    · obtain ⟨t, hr, hagain, hs, htarget⟩ := State.transact_silent_waits (u := .core) hh ho hg hoff be false
      exact ⟨t, by simp only [State.busRead, ht, hr, Res.bind], by simp only [State.busRead, htarget, ht, hagain, Res.bind], hs⟩
    · obtain ⟨t, hr, hagain, hs, htarget⟩ := State.transact_silent_waits (u := .buffer) hh ho hg hoff e.be true
      exact ⟨t, by simp only [State.busWrite, ht, hr, Res.bind], by simp only [State.busWrite, htarget, ht, hagain, Res.bind], hs⟩

end Sys2Proof.Machine
end

section
/-!
SUPPORT and PROOFS. What reads and writes of the function registers make of Memory Configuration 4, and the end of Memory Power Down (O53).
-/

namespace Sys2Proof.Machine

/-! ## Which addresses are function registers (R104) -/

/-- A choice between two regions that are not the function registers. -/
theorem Region.ite_ne_functionRegisters {c : Prop} [Decidable c] {x y : Region} (hx : x ≠ .functionRegisters) (hy : y ≠ .functionRegisters) :
    (if c then x else y) ≠ .functionRegisters := by
  split
  · exact hx
  · exact hy

/-- The decoder selects the function registers in their range alone (R189): below it, between it and 1 Gbyte, and above lie other regions. -/
theorem regionOf_functionRegisters_iff (mc0 mc3 : Word) (pa : Nat) :
    regionOf mc0 mc3 pa = .functionRegisters ↔ 0x10C00000 ≤ pa ∧ pa < 0x10E00000 := by
  rw [regionOf]
  by_cases hlow : pa < 0x10C00000
  · rw [if_pos hlow]
    refine iff_of_false ?_ (by omega)
    repeat' apply Region.ite_ne_functionRegisters
    all_goals simp only [ne_eq, reduceCtorEq, not_false_eq_true]
  · rw [if_neg hlow]
    by_cases hreg : pa < 0x10E00000
    · rw [if_pos (by omega), if_pos hreg]
      exact iff_of_true rfl (by omega)
    · rw [if_neg hreg]
      refine iff_of_false ?_ (by omega)
      repeat' apply Region.ite_ne_functionRegisters
      all_goals simp only [ne_eq, reduceCtorEq, not_false_eq_true]

/-- What an access reaches is a register exactly where the address is one. -/
theorem State.target_register_iff {s : State} {pa : Word} {t : Target} (h : s.target pa = .ok t) :
    s.isRegister pa = true ↔ ∃ off, t = .register off := by
  unfold State.target at h
  split at h
  · cases h
  case h_2 p hp =>
    have hr : s.isRegister pa = true ↔ regionOf s.dev.biu.mc0 s.dev.biu.mc3 p.toNat = .functionRegisters := by
      simp only [State.isRegister, Biu.isRegister, hp, decide_eq_true_eq, Bool.and_eq_true, regionOf_functionRegisters_iff]
    rw [hr]
    dsimp only at h
    split at h
    · cases h
    · split at h
      case h_1 hf => cases h; exact ⟨fun _ => ⟨_, rfl⟩, fun _ => hf⟩
      case h_2 second hm => cases h; rw [hm]; exact ⟨nofun, nofun⟩
      case h_3 hf _ =>
        refine ⟨fun he => absurd he hf, ?_⟩
        split at h <;> cases h <;> nofun

/-! ## Reads of the modules (R522) -/

/-- A read of a function register that leaves the Bus Interface Unit alone. -/
structure ReadKeepsBiu (d : Dev) (r : Option (Word × Dev)) : Prop where
  biu : ∀ w e, r = some (w, e) → e.biu = d.biu

section
variable {d : Dev}

theorem ReadKeepsBiu.none : ReadKeepsBiu d .none := ⟨fun _ _ h => by cases h⟩

theorem ReadKeepsBiu.some {w : Word} {e : Dev} (h : e.biu = d.biu) : ReadKeepsBiu d (.some (w, e)) :=
  ⟨fun _ _ he => by cases he; exact h⟩

theorem ReadKeepsBiu.map {α : Type} {f : α → Word × Dev} {r : Option α} (hf : ∀ a, (f a).2.biu = d.biu) : ReadKeepsBiu d (r.map f) := by
  cases r with
  | none => exact .none
  | some a => exact .some (hf a)

theorem ReadKeepsBiu.ite {c : Prop} [Decidable c] {x y : Option (Word × Dev)} (hx : ReadKeepsBiu d x) (hy : ReadKeepsBiu d y) :
    ReadKeepsBiu d (if c then x else y) := by
  split
  · exact hx
  · exact hy

variable (d)

theorem Dev.uartRead_biu (b : Bool) (v : Variant) (k : Nat) (free : Word) : ReadKeepsBiu d (d.uartRead b v k free) := by
  unfold Dev.uartRead
  split
  case h_6 => exact .some (Dev.withUart_biu ..)
  case h_7 => exact .none
  all_goals exact .some rfl

theorem Dev.mbusRead_biu (off : Nat) (free : Word) : ReadKeepsBiu d (d.mbusRead off free) := by
  unfold Dev.mbusRead
  split
  case h_8 => exact .none
  all_goals exact .some rfl

theorem Dev.chiRead_biu (off : Nat) (free : Word) : ReadKeepsBiu d (d.chiRead off free) := by
  unfold Dev.chiRead
  split
  case h_11 => exact .none
  all_goals exact .some rfl

theorem Dev.sibRead_biu (off : Nat) (free : Word) : ReadKeepsBiu d (d.sibRead off free) := by
  unfold Dev.sibRead
  split
  case h_6 => exact .map fun _ => rfl
  all_goals exact .some rfl

theorem Dev.irRead_biu (off : Nat) (free : Word) : ReadKeepsBiu d (d.irRead off free) := by
  unfold Dev.irRead
  split
  case h_4 => exact .none
  all_goals exact .some rfl

theorem Dev.videoRead_biu (off : Nat) (free : Word) : ReadKeepsBiu d (d.videoRead off free) :=
  .ite (.some rfl) (.map fun _ => rfl)

theorem Dev.siuRead_biu (v : Variant) (off : Nat) : ReadKeepsBiu d (d.siuRead v off) := by
  unfold Dev.siuRead
  split
  case h_7 => exact .none
  all_goals exact .some rfl

/-- No read of a function register changes the Bus Interface Unit, whatever module it is of. -/
theorem Dev.frRead_biu (v : Variant) (off : Nat) (free torn : Word) : ReadKeepsBiu d (d.frRead v off free torn) :=
  .ite (.map fun _ => rfl) <| .ite (d.videoRead_biu ..) <| .ite (d.sibRead_biu ..) <| .ite (d.irRead_biu ..) <|
  .ite (d.uartRead_biu ..) <| .ite (d.uartRead_biu ..) <| .ite (d.mbusRead_biu ..) <| .ite (.map fun _ => rfl) <|
  .ite (.map fun _ => rfl) <| .ite (.map fun _ => rfl) <| .ite (d.chiRead_biu ..) (d.siuRead_biu ..)

/-! ## Writes of the modules -/

/-- A write of a function register that leaves Memory Configuration 4 alone. -/
structure WriteKeepsMc4 (r : Except Refusal Dev) : Prop where
  mc4 : ∀ e, r = .ok e → e.biu.mc4 = d.biu.mc4

variable {d}

theorem WriteKeepsMc4.error {r : Refusal} : WriteKeepsMc4 d (.error r) := ⟨fun _ h => by cases h⟩

theorem WriteKeepsMc4.ok {e : Dev} (h : e.biu.mc4 = d.biu.mc4) : WriteKeepsMc4 d (.ok e) := ⟨fun _ he => by cases he; exact h⟩

theorem WriteKeepsMc4.map {α : Type} {f : α → Dev} {r : Except Refusal α} (hf : ∀ a, r = .ok a → (f a).biu.mc4 = d.biu.mc4) :
    WriteKeepsMc4 d (r.map f) := by
  cases r with
  | error x => exact .error
  | ok a => exact .ok (hf a rfl)

theorem WriteKeepsMc4.ite {c : Prop} [Decidable c] {x y : Except Refusal Dev} (hx : WriteKeepsMc4 d x) (hy : WriteKeepsMc4 d y) :
    WriteKeepsMc4 d (if c then x else y) := by
  split
  · exact hx
  · exact hy

/-- Of the Memory Configuration registers only the fourth holds MEMPOWERDOWN: a write of another leaves it as it is (R262). -/
theorem Biu.write_mc4 {b c : Biu} {off : Nat} {x : Word} (ho : off ≠ 0x010) (h : b.write off x = .ok c) : c.mc4 = b.mc4 := by
  unfold Biu.write at h
  split at h
  case h_5 => exact absurd rfl ho
  all_goals cases h
  all_goals rfl

variable (d)

theorem Dev.uartWrite_mc4 (b : Bool) (v : Variant) (k : Nat) (x free : Word) : WriteKeepsMc4 d (d.uartWrite b v k x free) := by
  have hput : ∀ u i, WriteKeepsMc4 d (.ok (d.withUart b u i)) := fun u i => .ok (by rw [Dev.withUart_biu])
  unfold Dev.uartWrite
  split
  · exact .ite .error <| .ite .error <| .ite .error (hput ..)
  · exact hput ..
  · exact hput ..
  · exact hput ..
  · exact .ok rfl
  · unfold Dev.uartSend
    dsimp only
    split
    · exact hput ..
    · exact .ok rfl
  · exact .error

theorem Dev.mbusWrite_mc4 (off : Nat) (x free : Word) : WriteKeepsMc4 d (d.mbusWrite off x free) := by
  have hsend : ∀ y swap keep, WriteKeepsMc4 d (.ok (d.mbusSend y swap keep)) := fun y swap keep => .ok (by unfold Dev.mbusSend; split <;> rfl)
  unfold Dev.mbusWrite
  split
  case h_1 => exact .ite .error (.ok rfl)
  case h_6 | h_7 => exact hsend ..
  case h_8 => exact .error
  all_goals exact .ok rfl

theorem Dev.spiWrite_mc4 (off : Nat) (x : Word) : WriteKeepsMc4 d (d.spiWrite off x) := by
  unfold Dev.spiWrite
  split
  · exact .ok rfl
  · exact .ite (.ok rfl) (.ok rfl)
  · exact .error

theorem Dev.powerWrite_biu (x : Word) : (d.powerWrite x).biu = d.biu := by
  unfold Dev.powerWrite
  dsimp only
  split <;> rfl

theorem Dev.siuWrite_mc4 (off : Nat) (x : Word) : WriteKeepsMc4 d (d.siuWrite off x) := by
  unfold Dev.siuWrite
  split
  · exact .map fun _ _ => rfl
  · exact .ok (by rw [Dev.powerWrite_biu])
  · exact .ite .error (.ok rfl)
  · exact .ok rfl
  · exact .error

/-- A write of any function register but Memory Configuration 4 itself leaves that register alone, whatever module it is of. -/
theorem Dev.frWrite_mc4 {off : Nat} (ho : off ≠ 0x010) (v : Variant) (x free : Word) : WriteKeepsMc4 d (d.frWrite v off x free) :=
  .ite (.map fun _ => Biu.write_mc4 ho) <| .ite (.map fun _ _ => rfl) <| .ite (.map fun _ _ => rfl) <| .ite (.map fun _ _ => rfl) <|
  .ite (d.uartWrite_mc4 ..) <| .ite (d.uartWrite_mc4 ..) <| .ite (d.mbusWrite_mc4 ..) <| .ite (.map fun _ _ => rfl) <|
  .ite (.map fun _ _ => rfl) <| .ite (d.spiWrite_mc4 ..) <| .ite (.map fun _ _ => rfl) <| .ite (.map fun _ _ => rfl) (d.siuWrite_mc4 ..)

end

/-! ## Memory Configuration 4 after a transaction (R243) -/

/-- A transaction with a function register leaves the memory interface asleep, if it is. -/
theorem Biu.start_register_mc4 (b : Biu) (u : BusUser) (off : Nat) : (b.start u (.register off)).mc4 = b.mc4 := by
  simp [Biu.start]

/-- A bit that is cleared reads as cleared. -/
theorem withBit_false_same (w : Word) (n : Nat) : (withBit w n false).getLsbD n = false := by
  by_cases hn : n < 32 <;> simp [withBit, bitMask, hn]

/-- Any other transaction ends the power down (R243). -/
theorem Biu.start_wakes (b : Biu) (u : BusUser) {t : Target} (ht : ∀ off, t ≠ .register off) : (b.start u t).mc4.getLsbD 16 = false := by
  have hmc4 : (b.start u t).mc4 = if b.powerDown then withBit b.mc4 16 false else b.mc4 := by
    cases t with
    | register off => exact absurd rfl (ht off)
    | _ => simp only [Biu.start, Bool.not_false, Bool.and_true]
  rw [hmc4]
  split
  case isTrue => exact withBit_false_same ..
  case isFalse hp => exact Bool.eq_false_of_not_eq_true hp

/-- A command to an SDRAM is none of its settings (R236). -/
theorem Biu.sdramCommand_mc4 (b : Biu) (bigEndian second : Bool) (x : Word) : (b.sdramCommand bigEndian second x).mc4 = b.mc4 := by
  unfold Biu.sdramCommand
  dsimp only
  split
  · rfl
  · rfl
  · split <;> rfl
  · split <;> rfl

/-- A transaction that completes on a bus that no one holds leaves Memory Configuration 4 as starting it did. -/
theorem State.transact_ok_mc4 {s v : State} {u : BusUser} {t : Target} {be : BitVec 4} {write ack : Bool} (hh : s.dev.biu.held = none)
    (h : s.transact u t be write = .ok ack v) : v.dev.biu.mc4 = (s.dev.biu.start u t).mc4 := by
  simp only [State.transact, hh, Option.isNone_none, if_true] at h
  split at h
  · cases h
  · unfold State.acknowledge at h
    split at h
    · cases h; rw [State.endBus_mc4, State.startBus_biu]
    · split at h <;> cases h
      rw [State.endBus_mc4, State.startBus_biu]

/-- What a transaction at `pa` that has begun in `s` may make of Memory Configuration 4: it clears MEMPOWERDOWN and nothing else, unless a
function register is there. -/
structure EndsPowerDown (s : State) (pa mc4 : Word) : Prop where
  wakes : s.isRegister pa = false → mc4.getLsbD 16 = false
  other : ∀ k, k ≠ 16 → mc4.getLsbD k = s.dev.biu.mc4.getLsbD k
  register : s.isRegister pa = true → mc4 = s.dev.biu.mc4

theorem State.transact_endsPowerDown {s v : State} {u : BusUser} {pa : Word} {t : Target} {be : BitVec 4} {write ack : Bool}
    (hh : s.dev.biu.held = none) (ht : s.target pa = .ok t) (h : s.transact u t be write = .ok ack v) :
    EndsPowerDown s pa v.dev.biu.mc4 := by
  rw [State.transact_ok_mc4 hh h]
  refine ⟨fun hr => Biu.start_wakes _ _ fun off he => ?_, Biu.start_mc4 _ _ _, fun hr => ?_⟩
  · rw [(State.target_register_iff ht).mpr ⟨off, he⟩] at hr
    cases hr
  · obtain ⟨off, rfl⟩ := (State.target_register_iff ht).mp hr
    exact Biu.start_register_mc4 _ _ _

/-- A read that completes is a transaction; what it reads changes nothing in the Bus Interface Unit. -/
theorem State.busRead_ok {s t : State} {u : BusUser} {pa w : Word} {be : BitVec 4} {x : Exc} (h : s.busRead u pa be x = .ok w t) :
    ∃ a ack v, s.target pa = .ok a ∧ s.transact u a be false = .ok ack v ∧ t.dev.biu = v.dev.biu := by
  unfold State.busRead at h
  split at h
  · cases h
  case h_2 a ha =>
    obtain ⟨ack, v, hv, hk⟩ := Res.bind_eq_ok h
    refine ⟨a, ack, v, ha, hv, ?_⟩
    split at hk
    · cases hk
    · split at hk
      case h_3 off =>
        split at hk
        · cases hk
        · split at hk
          case h_1 y d hd => cases hk; exact (Dev.settle_biu ..).trans ((v.dev.frRead_biu ..).biu _ _ hd)
          case h_2 => cases hk
      all_goals cases hk
      all_goals rfl

/-- A write that completes is a transaction; Memory Configuration 4 changes with a write of that register only. -/
theorem State.busWrite_ok {s t : State} {e : WbEntry} (h : s.busWrite e = .ok () t) :
    ∃ a ack v, s.target e.pa = .ok a ∧ s.transact .buffer a e.be true = .ok ack v ∧
      (a ≠ .register 0x010 → t.dev.biu.mc4 = v.dev.biu.mc4) := by
  unfold State.busWrite at h
  split at h
  · cases h
  case h_2 a ha =>
    obtain ⟨ack, v, hv, hk⟩ := Res.bind_eq_ok h
    refine ⟨a, ack, v, ha, hv, fun hne => ?_⟩
    split at hk
    · split at hk <;> cases hk <;> rfl
    · split at hk
      case h_2 off =>
        have hoff : off ≠ 0x010 := fun he => hne (congrArg _ he)
        split at hk
        · cases hk
        · split at hk
          case h_1 d hd =>
            cases hk
            exact (congrArg Biu.mc4 (Dev.settle_biu ..)).trans ((v.dev.frWrite_mc4 hoff ..).mc4 _ hd)
          case h_2 => cases hk
      case h_3 second => cases hk; exact Biu.sdramCommand_mc4 ..
      all_goals cases hk
      all_goals rfl

/-- Settles O53: a completed read or write leaves Memory Configuration 4 as its transaction does. -/
theorem memoryPowerDown : Obligations.MemoryPowerDown := by
  intro s hh wakes
  refine ⟨fun u pa w be x t h => ?_, fun e t h => ?_⟩
  · obtain ⟨a, ack, v, ha, hv, hbiu⟩ := State.busRead_ok h
    obtain ⟨hwakes, hother, hregister⟩ := State.transact_endsPowerDown hh ha hv
    rw [← hbiu] at hwakes hother hregister
    exact ⟨⟨fun hr => ⟨hwakes hr, hother⟩, fun hr _ => hregister hr⟩, hregister⟩
  · obtain ⟨a, ack, v, ha, hv, hmc4⟩ := State.busWrite_ok h
    obtain ⟨hwakes, hother, hregister⟩ := State.transact_endsPowerDown hh ha hv
    refine ⟨fun hr => ?_, fun hr hne => ?_⟩
    · rw [hmc4 fun he => by
        rw [(State.target_register_iff ha).mpr ⟨_, he⟩] at hr
        cases hr]
      exact ⟨hwakes hr, hother⟩
    · rw [hmc4 fun he => hne (he ▸ ha)]
      exact hregister hr

end Sys2Proof.Machine
end

section
/-!
SUPPORT and PROOFS. The decoder over the formats, and the two round trips (O1, O2, O3).
-/

namespace Sys2Proof

/-! ## Packing the formats -/

theorem packCode_append (op : BitVec 6) (rs rt rd : Reg) (shamt : BitVec 5) (funct : BitVec 6) :
    packCode op (rs ++ rt ++ rd ++ shamt) funct = packR op rs rt rd shamt funct := by
  simpa using packCode_fields (packR op rs rt rd shamt funct)

/-! ## The three maps of coprocessors 1 to 3 are one (R289) -/

/-- The instructions of a coprocessor: the four moves, the branches on its condition and their likely forms, its functions. -/
structure CopInstrs where
  mf : Reg → Reg → Instr
  cf : Reg → Reg → Instr
  mt : Reg → Reg → Instr
  ct : Reg → Reg → Instr
  bf : BitVec 16 → Instr
  bt : BitVec 16 → Instr
  bfl : BitVec 16 → Instr
  btl : BitVec 16 → Instr
  fn : BitVec 25 → Instr

def cop1Instrs : CopInstrs := ⟨.mfc1, .cfc1, .mtc1, .ctc1, .bc1f, .bc1t, .bc1fl, .bc1tl, .cop1⟩
def cop2Instrs : CopInstrs := ⟨.mfc2, .cfc2, .mtc2, .ctc2, .bc2f, .bc2t, .bc2fl, .bc2tl, .cop2⟩
def cop3Instrs : CopInstrs := ⟨.mfc3, .cfc3, .mtc3, .ctc3, .bc3f, .bc3t, .bc3fl, .bc3tl, .cop3⟩

/-- The map of a coprocessor word, over the coprocessor's instructions. -/
def CopInstrs.decode (c : CopInstrs) (rs rt rd : Reg) (shamt : BitVec 5) (funct : BitVec 6) (imm : BitVec 16)
    (cofun : BitVec 25) : Decoded :=
  match rs with
  | 0x00#5 => keepIf (shamt = 0 && funct = 0) (c.mf rt rd)
  | 0x02#5 => keepIf (shamt = 0 && funct = 0) (c.cf rt rd)
  | 0x04#5 => keepIf (shamt = 0 && funct = 0) (c.mt rt rd)
  | 0x06#5 => keepIf (shamt = 0 && funct = 0) (c.ct rt rd)
  | 0x08#5 =>
    match rt with
    | 0x00#5 => .instr (c.bf imm)
    | 0x01#5 => .instr (c.bt imm)
    | 0x02#5 => .instr (c.bfl imm)
    | 0x03#5 => .instr (c.btl imm)
    | _ => .copUndescribed
  | _ => if rs.getLsbD 4 then .instr (c.fn cofun) else .copUndescribed

theorem decodeCop1_eq : decodeCop1 = cop1Instrs.decode := rfl
theorem decodeCop2_eq : decodeCop2 = cop2Instrs.decode := rfl
theorem decodeCop3_eq : decodeCop3 = cop3Instrs.decode := rfl

/-! ## The decoder on a word of each major opcode and of each format (R282, R285)

A format leaves the decoder's other fields open: what it makes of the word does not depend on them. -/

section
variable {w : Word}

theorem decode_special (h : opOf w = 0x00) :
    decode w = decodeSpecial (rsOf w) (rtOf w) (rdOf w) (shamtOf w) (codeOf w) (functOf w) := by rw [decode, h]; rfl

theorem decode_regimm (h : opOf w = 0x01) : decode w = decodeRegimm (rsOf w) (rtOf w) (immOf w) := by rw [decode, h]; rfl

theorem decode_madd (h : opOf w = 0x1C) : decode w = decodeMadd (rsOf w) (rtOf w) (rdOf w) (shamtOf w) (functOf w) := by
  rw [decode, h]; rfl

theorem decode_cop0 (h : opOf w = 0x10) :
    decode w = decodeCop0 (rsOf w) (rtOf w) (rdOf w) (shamtOf w) (codeOf w) (functOf w) := by rw [decode, h]; rfl

end

theorem decode_packR {op : BitVec 6} {rs rt rd : Reg} {shamt : BitVec 5} {funct : BitVec 6} {d : Decoded}
    (h : ∀ imm target cofun, decodeFields op rs rt rd shamt funct imm target (rs ++ rt ++ rd ++ shamt) cofun = d) :
    decode (packR op rs rt rd shamt funct) = d := by
  rw [decode, opOf_packR, rsOf_packR, rtOf_packR, rdOf_packR, shamtOf_packR, functOf_packR, codeOf_packR]
  exact h ..

theorem decode_packI {op : BitVec 6} {rs rt : Reg} {imm : BitVec 16} {d : Decoded}
    (h : ∀ rd shamt funct target code cofun, decodeFields op rs rt rd shamt funct imm target code cofun = d) :
    decode (packI op rs rt imm) = d := by
  rw [decode, opOf_packI, rsOf_packI, rtOf_packI, immOf_packI]
  exact h ..

theorem decode_packJ {op : BitVec 6} {target : BitVec 26} {d : Decoded}
    (h : ∀ rs rt rd shamt funct imm code cofun, decodeFields op rs rt rd shamt funct imm target code cofun = d) :
    decode (packJ op target) = d := by
  rw [decode, opOf_packJ, targetOf_packJ]
  exact h ..

theorem decode_packCode {op : BitVec 6} {code : BitVec 20} {funct : BitVec 6} {d : Decoded}
    (h : ∀ rs rt rd shamt imm target cofun, decodeFields op rs rt rd shamt funct imm target code cofun = d) :
    decode (packCode op code funct) = d := by
  rw [decode, opOf_packCode, codeOf_packCode, functOf_packCode]
  exact h ..

/-- Bit 25 is bit 4 of the field at 25:21. -/
theorem decode_packCofun {op : BitVec 6} {cofun : BitVec 25} {d : Decoded}
    (h : ∀ rs rt rd shamt funct imm target code, rs.getLsbD 4 = true → decodeFields op rs rt rd shamt funct imm target code cofun = d) :
    decode (packCofun op cofun) = d := by
  rw [decode, opOf_packCofun, cofunOf_packCofun]
  refine h _ _ _ _ _ _ _ _ ?_
  rw [rsOf_packCofun, BitVec.getLsbD_append]
  rfl

/-- A coprocessor word with bit 25 set is a coprocessor function. -/
theorem CopInstrs.decode_fn (c : CopInstrs) {rs : Reg} (h : rs.getLsbD 4 = true) (rt rd : Reg) (shamt : BitVec 5) (funct : BitVec 6)
    (imm : BitVec 16) (cofun : BitVec 25) : c.decode rs rt rd shamt funct imm cofun = .instr (c.fn cofun) := by
  unfold CopInstrs.decode
  split
  case h_6 => rw [if_pos h]
  all_goals exact absurd h (by decide)

/-! ## Decoding an encoded instruction -/

/-- Settles O1: each format hands the decoder the fields that it was packed from. -/
theorem decodeEncode : Obligations.DecodeEncode
  | .add .. | .addu .. | .sub .. | .subu .. | .and .. | .or .. | .xor .. | .nor .. | .slt .. | .sltu .. | .sll .. | .srl .. | .sra ..
  | .sllv .. | .srlv .. | .srav .. | .mult .. | .multu .. | .div .. | .divu .. | .mfhi .. | .mthi .. | .mflo .. | .mtlo .. | .madd ..
  | .maddu .. | .jr .. | .jalr .. | .sync | .mfc0 .. | .mtc0 .. | .tlbr | .tlbwi | .tlbwr | .tlbp | .rfe | .deret
  | .mfc1 .. | .cfc1 .. | .mtc1 .. | .ctc1 .. | .mfc2 .. | .cfc2 .. | .mtc2 .. | .ctc2 .. | .mfc3 .. | .cfc3 .. | .mtc3 .. | .ctc3 .. =>
    decode_packR fun _ _ _ => rfl
  | .addi .. | .addiu .. | .slti .. | .sltiu .. | .andi .. | .ori .. | .xori .. | .lui ..
  | .beq .. | .bne .. | .blez .. | .bgtz .. | .beql .. | .bnel .. | .blezl .. | .bgtzl ..
  | .bltz .. | .bgez .. | .bltzl .. | .bgezl .. | .bltzal .. | .bgezal .. | .bltzall .. | .bgezall ..
  | .lb .. | .lh .. | .lwl .. | .lw .. | .lbu .. | .lhu .. | .lwr .. | .sb .. | .sh .. | .swl .. | .sw .. | .swr .. | .cache ..
  | .lwc0 .. | .swc0 .. | .lwc1 .. | .swc1 .. | .lwc2 .. | .swc2 .. | .lwc3 .. | .swc3 ..
  | .bc1f .. | .bc1t .. | .bc1fl .. | .bc1tl .. | .bc2f .. | .bc2t .. | .bc2fl .. | .bc2tl ..
  | .bc3f .. | .bc3t .. | .bc3fl .. | .bc3tl .. =>
    decode_packI fun _ _ _ _ _ _ => rfl
  | .j _ | .jal _ => decode_packJ fun _ _ _ _ _ _ _ _ => rfl
  | .syscall _ | .brk _ | .sdbbp _ => decode_packCode fun _ _ _ _ _ _ _ => rfl
  | .cop1 _ => decode_packCofun fun _ _ _ _ _ _ _ _ h => cop1Instrs.decode_fn h ..
  | .cop2 _ => decode_packCofun fun _ _ _ _ _ _ _ _ h => cop2Instrs.decode_fn h ..
  | .cop3 _ => decode_packCofun fun _ _ _ _ _ _ _ _ h => cop3Instrs.decode_fn h ..


/-! ## Encoding a decoded instruction -/

/-- An instruction comes out of the check of the unused fields only where they are zero (R292). -/
theorem keepIf_eq_instr {mbz : Bool} {i j : Instr} : keepIf mbz i = .instr j ↔ mbz = true ∧ i = j := by
  cases mbz <;> simp [keepIf]

section
variable {rs rt rd : Reg} {shamt : BitVec 5} {funct : BitVec 6} {imm : BitVec 16} {cofun : BitVec 25} {i : Instr}

theorem encode_of_decodeSpecial (h : decodeSpecial rs rt rd shamt (rs ++ rt ++ rd ++ shamt) funct = .instr i) :
    encode i = packR 0x00 rs rt rd shamt funct := by
  unfold decodeSpecial at h
  split at h
  case h_9 | h_10 | h_11 =>
    cases h
    exact packCode_append ..
  case h_12 =>
    simp only [keepIf_eq_instr, decide_eq_true_eq] at h
    obtain ⟨hcode, rfl⟩ := h
    rw [← packCode_append, hcode]
    rfl
  case h_31 => cases h
  all_goals simp only [keepIf_eq_instr, Bool.and_eq_true, decide_eq_true_eq, and_assoc] at h
  case h_7 | h_13 | h_14 | h_15 | h_16 =>
    obtain ⟨rfl, rfl, rfl, rfl⟩ := h
    rfl
  case h_8 | h_19 | h_20 =>
    obtain ⟨rfl, rfl, rfl⟩ := h
    rfl
  all_goals
    obtain ⟨rfl, rfl⟩ := h
    rfl

theorem encode_of_decodeRegimm (h : decodeRegimm rs rt imm = .instr i) : encode i = packI 0x01 rs rt imm := by
  unfold decodeRegimm at h
  split at h <;> cases h <;> rfl

theorem encode_of_decodeMadd (h : decodeMadd rs rt rd shamt funct = .instr i) : encode i = packR 0x1C rs rt rd shamt funct := by
  unfold decodeMadd at h
  split at h
  case h_3 => cases h
  all_goals
    simp only [keepIf_eq_instr, decide_eq_true_eq] at h
    obtain ⟨rfl, rfl⟩ := h
    rfl

theorem encode_of_decodeCop0 (h : decodeCop0 rs rt rd shamt (rs ++ rt ++ rd ++ shamt) funct = .instr i) :
    encode i = packR 0x10 rs rt rd shamt funct := by
  unfold decodeCop0 at h
  split at h
  case h_3 =>
    split at h
    case isFalse => cases h
    case isTrue =>
      unfold decodeCop0Fun at h
      split at h
      case h_7 => cases h
      all_goals
        simp only [keepIf_eq_instr, decide_eq_true_eq] at h
        obtain ⟨hcode, rfl⟩ := h
        rw [← packCode_append, hcode]
        rfl
  all_goals
    simp only [keepIf_eq_instr, Bool.and_eq_true, decide_eq_true_eq, and_assoc] at h
    obtain ⟨rfl, rfl, rfl⟩ := h
    rfl

end

/-- The encodings of a coprocessor's instructions under the major opcode `op` (R289). -/
structure CopInstrs.EncodedUnder (c : CopInstrs) (op : BitVec 6) : Prop where
  mf : ∀ rt rd, encode (c.mf rt rd) = packR op 0x00 rt rd 0x00 0x00
  cf : ∀ rt rd, encode (c.cf rt rd) = packR op 0x02 rt rd 0x00 0x00
  mt : ∀ rt rd, encode (c.mt rt rd) = packR op 0x04 rt rd 0x00 0x00
  ct : ∀ rt rd, encode (c.ct rt rd) = packR op 0x06 rt rd 0x00 0x00
  bf : ∀ imm, encode (c.bf imm) = packI op 0x08 0x00 imm
  bt : ∀ imm, encode (c.bt imm) = packI op 0x08 0x01 imm
  bfl : ∀ imm, encode (c.bfl imm) = packI op 0x08 0x02 imm
  btl : ∀ imm, encode (c.btl imm) = packI op 0x08 0x03 imm
  fn : ∀ cofun, encode (c.fn cofun) = packCofun op cofun

theorem cop1Instrs_encoded : cop1Instrs.EncodedUnder 0x11 := by constructor <;> intros <;> rfl
theorem cop2Instrs_encoded : cop2Instrs.EncodedUnder 0x12 := by constructor <;> intros <;> rfl
theorem cop3Instrs_encoded : cop3Instrs.EncodedUnder 0x13 := by constructor <;> intros <;> rfl

section
variable {w : Word} {op : BitVec 6} {i : Instr}

theorem packR_of_fields (hop : opOf w = op) {rs : Reg} {shamt : BitVec 5} {funct : BitVec 6} (hrs : rsOf w = rs) (hs : shamtOf w = shamt)
    (hf : functOf w = funct) : packR op rs (rtOf w) (rdOf w) shamt funct = w := by
  subst hop hrs hs hf
  exact packR_fields w

theorem packJ_of_fields (hop : opOf w = op) : packJ op (targetOf w) = w := by
  subst hop
  exact packJ_fields w

theorem packI_of_fields (hop : opOf w = op) {rs rt : Reg} (hrs : rsOf w = rs) (hrt : rtOf w = rt) : packI op rs rt (immOf w) = w := by
  subst hop hrs hrt
  exact packI_fields w

theorem CopInstrs.EncodedUnder.encode_of_decode {c : CopInstrs} (hc : c.EncodedUnder op) (hop : opOf w = op)
    (h : c.decode (rsOf w) (rtOf w) (rdOf w) (shamtOf w) (functOf w) (immOf w) (cofunOf w) = .instr i) : encode i = w := by
  unfold CopInstrs.decode at h
  split at h
  case h_5 hrs =>
    split at h
    case h_1 hrt => cases h; exact (hc.bf _).trans (packI_of_fields hop hrs hrt)
    case h_2 hrt => cases h; exact (hc.bt _).trans (packI_of_fields hop hrs hrt)
    case h_3 hrt => cases h; exact (hc.bfl _).trans (packI_of_fields hop hrs hrt)
    case h_4 hrt => cases h; exact (hc.btl _).trans (packI_of_fields hop hrs hrt)
    case h_5 => cases h
  case h_6 =>
    split at h
    case isTrue h4 => cases h; rw [hc.fn, ← hop, packCofun_fields w h4]
    case isFalse => cases h
  all_goals
    rename_i hrs
    simp only [keepIf_eq_instr, Bool.and_eq_true, decide_eq_true_eq] at h
    obtain ⟨⟨hs, hf⟩, rfl⟩ := h
  · exact (hc.mf ..).trans (packR_of_fields hop hrs hs hf)
  · exact (hc.cf ..).trans (packR_of_fields hop hrs hs hf)
  · exact (hc.mt ..).trans (packR_of_fields hop hrs hs hf)
  · exact (hc.ct ..).trans (packR_of_fields hop hrs hs hf)

end

/-- Settles O2: by the major opcode, each map gives an instruction the fields that its format packs. -/
theorem encodeDecode : Obligations.EncodeDecode := by
  intro w i h
  unfold decode decodeFields at h
  rw [codeOf_fields] at h
  split at h
  case h_1 hop => exact (encode_of_decodeSpecial h).trans (packR_of_fields hop rfl rfl rfl)
  case h_2 hop => exact (encode_of_decodeRegimm h).trans (packI_of_fields hop rfl rfl)
  case h_3 hop | h_4 hop =>
    cases h
    exact packJ_of_fields hop
  case h_7 hop | h_8 hop | h_23 hop | h_24 hop =>
    simp only [keepIf_eq_instr, decide_eq_true_eq] at h
    obtain ⟨hrt, rfl⟩ := h
    exact packI_of_fields hop rfl hrt
  case h_16 hop =>
    simp only [keepIf_eq_instr, decide_eq_true_eq] at h
    obtain ⟨hrs, rfl⟩ := h
    exact packI_of_fields hop hrs rfl
  case h_17 hop => exact (encode_of_decodeCop0 h).trans (packR_of_fields hop rfl rfl rfl)
  case h_18 hop =>
    rw [decodeCop1_eq] at h
    exact cop1Instrs_encoded.encode_of_decode hop h
  case h_19 hop =>
    rw [decodeCop2_eq] at h
    exact cop2Instrs_encoded.encode_of_decode hop h
  case h_20 hop =>
    rw [decodeCop3_eq] at h
    exact cop3Instrs_encoded.encode_of_decode hop h
  case h_25 hop => exact (encode_of_decodeMadd h).trans (packR_of_fields hop rfl rfl rfl)
  case h_47 => cases h
  all_goals
    rename_i hop
    cases h
    exact packI_of_fields hop rfl rfl

/-! ## Sample words -/

/-- Settles O3, on the words written out. -/
theorem sampleWordsDecode : Obligations.SampleWordsDecode := ⟨rfl, rfl, rfl, rfl, rfl, rfl, rfl, rfl, rfl, rfl, rfl, rfl, rfl, rfl⟩

end Sys2Proof
end

section
/-!
SUPPORT and PROOFS. The check of usability that comes first on a coprocessor word, and the words that are no instruction of the table
(O4, O47, O48).
-/

namespace Sys2Proof.Machine

/-! ## The check of usability (R320, R446) -/

section
variable {s : State} {k : Host.Outcome State Fault Refusal}

theorem State.withCop_usable {z : Nat} (h : s.copUsable z = true) : s.withCop z k = k := if_pos h

theorem State.withCop_unusable {z : Nat} (h : s.copUsable z = false) : s.withCop z k = .next (s.raise (.cpu (BitVec.ofNat 2 z))) :=
  if_neg (Bool.eq_false_iff.mp h)

theorem State.withCop0_usable (h : s.cop0Usable = true) : s.withCop0 k = k := if_pos h

theorem State.withCop0_unusable (h : s.cop0Usable = false) : s.withCop0 k = .next (s.raise (.cpu 0)) := if_neg (Bool.eq_false_iff.mp h)

end

/-! ## Coprocessor operations and undescribed encodings -/

/-- Settles O47: each of these instructions is a refusal behind the check of usability. -/
theorem coprocessorOperations : Obligations.CoprocessorOperations := by
  intro s rt rd imm f all
  have checked : ∀ {z is r}, (∀ i ∈ is, exec i s = s.withCop z (.refused r)) → all z is r := fun hexec i hi =>
    ⟨fun h => (hexec i hi).trans (State.withCop_unusable h), fun h => (hexec i hi).trans (State.withCop_usable h)⟩
  refine ⟨checked ?_, checked ?_, checked ?_, checked ?_, checked ?_, checked ?_⟩ <;>
    simp only [List.forall_mem_cons, List.not_mem_nil, false_imp_iff, implies_true, and_true]
  · exact ⟨rfl, rfl, rfl, rfl, rfl⟩
  · exact ⟨rfl, rfl, rfl, rfl, rfl⟩
  · exact ⟨rfl, rfl, rfl, rfl, rfl⟩
  · exact ⟨rfl, rfl⟩
  · exact ⟨rfl, rfl⟩
  · exact ⟨rfl, rfl⟩

theorem State.cp0Read_unlisted (s : State) {rd : Reg} (h : rd ∉ [0#5, 1#5, 2#5, 4#5, 8#5, 10#5, 12#5, 13#5, 14#5, 15#5]) :
    s.cp0Read rd = none := by
  unfold State.cp0Read
  split
  case h_11 => rfl
  all_goals exact absurd (by decide) h

theorem Cp0.write_unlisted (c : Cp0) {rd : Reg} (h : rd ∉ [0#5, 1#5, 2#5, 4#5, 8#5, 10#5, 12#5, 13#5, 14#5, 15#5]) (v : Word) :
    c.write rd v = none := by
  unfold Cp0.write
  split
  case h_11 => rfl
  all_goals exact absurd (by decide) h

/-- Settles O48. -/
theorem undescribedEncodings : Obligations.UndescribedEncodings := by
  intro s rs rt rd imm code
  refine ⟨?_, fun h => State.withCop0_usable h, fun h hrd => ⟨?_, ?_⟩⟩
  · simp only [List.forall_mem_cons, List.not_mem_nil, false_imp_iff, implies_true, and_true]
    exact ⟨rfl, rfl, rfl, rfl, rfl, rfl, rfl, rfl, rfl, rfl⟩
  · calc exec (.mfc0 rt rd) s = _ := State.withCop0_usable h
      _ = .refused .cp0Register := by rw [State.cp0Read_unlisted s hrd]
  · calc exec (.mtc0 rt rd) s = _ := State.withCop0_usable h
      _ = .refused .cp0Register := by rw [Cp0.write_unlisted _ hrd]

end Sys2Proof.Machine

namespace Sys2Proof

/-! ## What the decoder makes of the words outside the table -/

theorem keepIf_eq_unusedField {mbz : Bool} {i : Instr} : keepIf mbz i = .unusedField ↔ mbz = false := by
  cases mbz <;> simp [keepIf]

/-- The reserved major opcodes (R285, R290). -/
theorem decodeFields_reserved {op : BitVec 6} (h : op ∈ [0x18#6, 0x19#6, 0x1A#6, 0x1B#6, 0x1D#6, 0x1E#6, 0x1F#6, 0x27#6, 0x2C#6, 0x2D#6,
    0x34#6, 0x35#6, 0x36#6, 0x37#6, 0x3C#6, 0x3D#6, 0x3E#6, 0x3F#6]) (rs rt rd : Reg) (shamt : BitVec 5) (funct : BitVec 6)
    (imm : BitVec 16) (target : BitVec 26) (code : BitVec 20) (cofun : BitVec 25) :
    decodeFields op rs rt rd shamt funct imm target code cofun = .reserved := by
  unfold decodeFields
  split
  case h_47 => rfl
  all_goals exact absurd h (by decide)

/-- The branches that do not use `rt` (R292). -/
theorem decodeFields_unused_rt {rt : Reg} (h : rt ≠ 0) : ∀ op ∈ [0x06#6, 0x07#6, 0x16#6, 0x17#6],
    ∀ rs rd shamt funct imm target code cofun, decodeFields op rs rt rd shamt funct imm target code cofun = .unusedField := by
  have hk : ∀ i, keepIf (rt = 0) i = .unusedField := fun i => keepIf_eq_unusedField.mpr (decide_eq_false h)
  simp only [List.forall_mem_cons, List.not_mem_nil, false_imp_iff, implies_true, and_true]
  refine ⟨?_, ?_, ?_, ?_⟩ <;> intros <;> exact hk _

/-- `lui` does not use `rs` (R292). -/
theorem decodeFields_unused_rs {rs : Reg} (h : rs ≠ 0) (rt rd : Reg) (shamt : BitVec 5) (funct : BitVec 6) (imm : BitVec 16)
    (target : BitVec 26) (code : BitVec 20) (cofun : BitVec 25) :
    decodeFields 0x0F rs rt rd shamt funct imm target code cofun = .unusedField := keepIf_eq_unusedField.mpr (decide_eq_false h)

section
variable {rs rt rd : Reg} {shamt : BitVec 5} {code : BitVec 20} {funct : BitVec 6} {imm : BitVec 16}

/-- The reserved functions of SPECIAL (R286, R290). -/
theorem decodeSpecial_reserved (h : funct ∈ [0x01#6, 0x05#6, 0x0A#6, 0x0B#6, 0x14#6, 0x15#6, 0x16#6, 0x17#6, 0x1C#6, 0x1D#6, 0x1E#6,
    0x1F#6, 0x28#6, 0x29#6] ∨ 0x2C ≤ funct.toNat) : decodeSpecial rs rt rd shamt code funct = .reserved := by
  unfold decodeSpecial
  split
  case h_31 => rfl
  all_goals exact absurd h (by decide)

theorem decodeMadd_reserved (h : 2 ≤ funct.toNat) : decodeMadd rs rt rd shamt funct = .reserved := by
  unfold decodeMadd
  split
  case h_3 => rfl
  all_goals exact absurd h (by decide)

theorem decodeRegimm_reserved (h : 4 ≤ rt.toNat % 16) : decodeRegimm rs rt imm = .reserved := by
  unfold decodeRegimm
  split
  case h_9 => rfl
  all_goals exact absurd h (by decide)

/-! The non-zero unused fields of SPECIAL, by the fields that a function does not use (R292). -/

theorem decodeSpecial_unused_shamt (h : shamt ≠ 0) : ∀ f ∈ [0x04#6, 0x06#6, 0x07#6, 0x18#6, 0x19#6, 0x20#6, 0x21#6, 0x22#6, 0x23#6,
    0x24#6, 0x25#6, 0x26#6, 0x27#6, 0x2A#6, 0x2B#6], decodeSpecial rs rt rd shamt code f = .unusedField := by
  have hk : ∀ i, keepIf (shamt = 0) i = .unusedField := fun i => keepIf_eq_unusedField.mpr (decide_eq_false h)
  simp only [List.forall_mem_cons, List.not_mem_nil, false_imp_iff, implies_true, and_true]
  exact ⟨hk _, hk _, hk _, hk _, hk _, hk _, hk _, hk _, hk _, hk _, hk _, hk _, hk _, hk _, hk _⟩

theorem decodeSpecial_unused_rs (h : rs ≠ 0) : ∀ f ∈ [0x00#6, 0x02#6, 0x03#6], decodeSpecial rs rt rd shamt code f = .unusedField := by
  have hk : ∀ i, keepIf (rs = 0) i = .unusedField := fun i => keepIf_eq_unusedField.mpr (decide_eq_false h)
  simp only [List.forall_mem_cons, List.not_mem_nil, false_imp_iff, implies_true, and_true]
  exact ⟨hk _, hk _, hk _⟩

theorem decodeSpecial_unused_rt_rd_shamt (h : rt ≠ 0 ∨ rd ≠ 0 ∨ shamt ≠ 0) :
    ∀ f ∈ [0x08#6, 0x11#6, 0x13#6], decodeSpecial rs rt rd shamt code f = .unusedField := by
  have hk : ∀ i, keepIf (rt = 0 && rd = 0 && shamt = 0) i = .unusedField := fun i => by
    simpa only [keepIf_eq_unusedField, Bool.and_eq_false_iff, decide_eq_false_iff_not, or_assoc] using h
  simp only [List.forall_mem_cons, List.not_mem_nil, false_imp_iff, implies_true, and_true]
  exact ⟨hk _, hk _, hk _⟩

theorem decodeSpecial_unused_rs_rt_shamt (h : rs ≠ 0 ∨ rt ≠ 0 ∨ shamt ≠ 0) :
    ∀ f ∈ [0x10#6, 0x12#6], decodeSpecial rs rt rd shamt code f = .unusedField := by
  have hk : ∀ i, keepIf (rs = 0 && rt = 0 && shamt = 0) i = .unusedField := fun i => by
    simpa only [keepIf_eq_unusedField, Bool.and_eq_false_iff, decide_eq_false_iff_not, or_assoc] using h
  simp only [List.forall_mem_cons, List.not_mem_nil, false_imp_iff, implies_true, and_true]
  exact ⟨hk _, hk _⟩

theorem decodeSpecial_unused_rd_shamt (h : rd ≠ 0 ∨ shamt ≠ 0) :
    ∀ f ∈ [0x1A#6, 0x1B#6], decodeSpecial rs rt rd shamt code f = .unusedField := by
  have hk : ∀ i, keepIf (rd = 0 && shamt = 0) i = .unusedField := fun i => by
    simpa only [keepIf_eq_unusedField, Bool.and_eq_false_iff, decide_eq_false_iff_not] using h
  simp only [List.forall_mem_cons, List.not_mem_nil, false_imp_iff, implies_true, and_true]
  exact ⟨hk _, hk _⟩

theorem decodeSpecial_unused_rt_shamt (h : rt ≠ 0 ∨ shamt ≠ 0) : decodeSpecial rs rt rd shamt code 0x09 = .unusedField := by
  have hk : (rt = 0 && shamt = 0) = false := by simpa only [Bool.and_eq_false_iff, decide_eq_false_iff_not] using h
  exact keepIf_eq_unusedField.mpr hk

theorem decodeSpecial_unused_code (h : code ≠ 0) : decodeSpecial rs rt rd shamt code 0x0F = .unusedField :=
  keepIf_eq_unusedField.mpr (decide_eq_false h)

theorem decodeMadd_unused (hf : funct.toNat < 2) (h : shamt ≠ 0) : decodeMadd rs rt rd shamt funct = .unusedField := by
  have hf' : funct = 0x00 ∨ funct = 0x01 := by bv_omega
  rcases hf' with rfl | rfl <;> exact keepIf_eq_unusedField.mpr (decide_eq_false h)

/-! Coprocessor 0 (R288, R328). -/

theorem decodeCop0_fn (h : rs.getLsbD 4 = true) :
    decodeCop0 rs rt rd shamt code funct = decodeCop0Fun (code = 0x80000) funct := by
  unfold decodeCop0
  split
  case h_3 => exact if_pos h
  all_goals exact absurd h (by decide)

theorem decodeCop0Fun_reserved {mid : Bool} (h : funct ∉ [0x01#6, 0x02#6, 0x06#6, 0x08#6, 0x10#6, 0x1F#6]) :
    decodeCop0Fun mid funct = .reserved := by
  unfold decodeCop0Fun
  split
  case h_7 => rfl
  all_goals exact absurd (by decide) h

theorem decodeCop0Fun_unused : ∀ f ∈ [0x01#6, 0x02#6, 0x06#6, 0x08#6, 0x10#6, 0x1F#6], decodeCop0Fun false f = .unusedField := by decide

theorem decodeCop0_reserved (h4 : rs.getLsbD 4 = false) (h : rs ≠ 0 ∧ rs ≠ 4) : decodeCop0 rs rt rd shamt code funct = .reserved := by
  unfold decodeCop0
  split
  case h_1 => exact absurd rfl h.1
  case h_2 => exact absurd rfl h.2
  case h_3 => rw [h4, if_neg Bool.false_ne_true]

theorem decodeCop0_unused (h : rs = 0 ∨ rs = 4) (hu : shamt ≠ 0 ∨ funct ≠ 0) :
    decodeCop0 rs rt rd shamt code funct = .unusedField := by
  have hk : (shamt = 0 && funct = 0) = false := by simpa only [Bool.and_eq_false_iff, decide_eq_false_iff_not] using hu
  rcases h with rfl | rfl <;> exact keepIf_eq_unusedField.mpr hk

/-! Coprocessors 1 to 3 (R289, R449). -/

theorem CopInstrs.decode_other (c : CopInstrs) {cofun : BitVec 25} (h4 : rs.getLsbD 4 = false)
    (h : rs ∉ [0x00#5, 0x02#5, 0x04#5, 0x06#5, 0x08#5] ∨ (rs = 0x08 ∧ 3 < rt.toNat)) :
    c.decode rs rt rd shamt funct imm cofun = .copUndescribed := by
  unfold CopInstrs.decode
  split
  case h_5 =>
    have hrt : 3 < rt.toNat := by simpa using h
    split
    case h_5 => rfl
    all_goals exact absurd hrt (by decide)
  case h_6 => rw [h4, if_neg Bool.false_ne_true]
  all_goals simp at h

theorem CopInstrs.decode_unused (c : CopInstrs) {cofun : BitVec 25} (h : shamt ≠ 0 ∨ funct ≠ 0) :
    ∀ r ∈ [0x00#5, 0x02#5, 0x04#5, 0x06#5], c.decode r rt rd shamt funct imm cofun = .unusedField := by
  have hk : ∀ i, keepIf (shamt = 0 && funct = 0) i = .unusedField := fun i => by
    simpa only [keepIf_eq_unusedField, Bool.and_eq_false_iff, decide_eq_false_iff_not] using h
  simp only [List.forall_mem_cons, List.not_mem_nil, false_imp_iff, implies_true, and_true]
  exact ⟨hk _, hk _, hk _, hk _⟩

end

/-! The same of whole words, bit 25 read as the top bit of the field at 25:21. -/

section
variable {w : Word}

theorem rsOf_getLsbD_four (w : Word) : (rsOf w).getLsbD 4 = w.getLsbD 25 := by
  simp only [rsOf, BitVec.getLsbD_extractLsb']
  rfl

theorem decode_cop0_reserved (hop : opOf w = 0x10)
    (h : if w.getLsbD 25 then functOf w ∉ [0x01#6, 0x02#6, 0x06#6, 0x08#6, 0x10#6, 0x1F#6] else rsOf w ≠ 0 ∧ rsOf w ≠ 4) :
    decode w = .reserved := by
  rw [decode_cop0 hop]
  rw [← rsOf_getLsbD_four] at h
  split at h
  case isTrue h4 => rw [decodeCop0_fn h4, decodeCop0Fun_reserved h]
  case isFalse h4 => exact decodeCop0_reserved (Bool.eq_false_iff.mpr h4) h

theorem decode_cop0_unused (hop : opOf w = 0x10)
    (hr : ¬ if w.getLsbD 25 then functOf w ∉ [0x01#6, 0x02#6, 0x06#6, 0x08#6, 0x10#6, 0x1F#6] else rsOf w ≠ 0 ∧ rsOf w ≠ 4)
    (h : if w.getLsbD 25 then codeOf w ≠ 0x80000 else shamtOf w ≠ 0 ∨ functOf w ≠ 0) : decode w = .unusedField := by
  rw [decode_cop0 hop]
  rw [← rsOf_getLsbD_four] at h hr
  split at h
  case isTrue h4 =>
    rw [if_pos h4, not_not] at hr
    rw [decodeCop0_fn h4, decide_eq_false h, decodeCop0Fun_unused _ hr]
  case isFalse h4 =>
    rw [if_neg h4, not_and_or, not_not, not_not] at hr
    exact decodeCop0_unused hr h

/-- A word of coprocessor 1, 2 or 3 goes through the one map of the three. -/
theorem decode_cop {z : Nat} (hz : z ∈ [1, 2, 3]) (hop : opOf w = BitVec.ofNat 6 (0x10 + z)) :
    ∃ c : CopInstrs, decode w = c.decode (rsOf w) (rtOf w) (rdOf w) (shamtOf w) (functOf w) (immOf w) (cofunOf w) := by
  simp only [List.mem_cons, List.not_mem_nil, or_false] at hz
  rcases hz with rfl | rfl | rfl
  · exact ⟨cop1Instrs, by rw [← decodeCop1_eq, decode, hop]; rfl⟩
  · exact ⟨cop2Instrs, by rw [← decodeCop2_eq, decode, hop]; rfl⟩
  · exact ⟨cop3Instrs, by rw [← decodeCop3_eq, decode, hop]; rfl⟩

end

end Sys2Proof

namespace Sys2Proof.Machine

/-! ## What the machine does with them (R290, R292, R294, R449) -/

section
variable {s : State} {w : Word}

theorem State.execWord_reserved (h : decode w = .reserved) : s.execWord w = s.copWord w (.next (s.raise .ri)) := by
  simp only [State.execWord, h]
  rfl

theorem State.execWord_unusedField (h : decode w = .unusedField) : s.execWord w = s.copWord w (.refused .unusedField) := by
  simp only [State.execWord, h]
  rfl

theorem State.execWord_copUndescribed (h : decode w = .copUndescribed) : s.execWord w = s.copWord w (.refused .coprocessorAbsent) := by
  simp only [State.execWord, h]
  rfl

variable {k : Host.Outcome State Fault Refusal}

/-- The major opcodes of the coprocessors 0 to 3 (R285). -/
def copMajors : List (BitVec 6) := [0x10#6, 0x11#6, 0x12#6, 0x13#6]

/-- No check comes before a word of another major opcode. -/
theorem State.copWord_other (h : opOf w ∉ copMajors) : s.copWord w k = k := by
  unfold State.copWord
  generalize opOf w = op at h
  split
  case h_5 => rfl
  all_goals exact absurd (by decide) h

theorem State.copWord_zero (h : opOf w = 0x10) : s.copWord w k = s.withCop0 k := by rw [State.copWord, h]; rfl

theorem State.copWord_cop {z : Nat} (hz : z ∈ [1, 2, 3]) (h : opOf w = BitVec.ofNat 6 (0x10 + z)) : s.copWord w k = s.withCop z k := by
  simp only [List.mem_cons, List.not_mem_nil, or_false] at hz
  rcases hz with rfl | rfl | rfl <;> rw [State.copWord, h] <;> rfl

theorem State.raises_ri (s : State) (hop : opOf w ∉ copMajors) (h : decode w = .reserved) : s.execWord w = .next (s.raise .ri) :=
  (State.execWord_reserved h).trans (State.copWord_other hop)

theorem State.stops_unusedField (s : State) (hop : opOf w ∉ copMajors) (h : decode w = .unusedField) :
    s.execWord w = .refused .unusedField := (State.execWord_unusedField h).trans (State.copWord_other hop)

end

/-- Settles O4: the decoder puts the word into one of its three kinds outside the table, and the kind decides, behind the check of
usability. -/
theorem reservedEncodings : Obligations.ReservedEncodings := by
  intro s w stops raises
  have notCop : ∀ {op}, opOf w = op → op ∉ copMajors → opOf w ∉ copMajors := fun h hn => h ▸ hn
  refine ⟨?_, ?_, ?_, ?_⟩
  · rintro (h | ⟨hop, h⟩ | ⟨hop, h⟩ | ⟨hop, h⟩ | ⟨hop, h⟩)
    · have hall : ∀ op ∈ [0x18#6, 0x19#6, 0x1A#6, 0x1B#6, 0x1D#6, 0x1E#6, 0x1F#6, 0x27#6, 0x2C#6, 0x2D#6, 0x34#6, 0x35#6, 0x36#6, 0x37#6,
        0x3C#6, 0x3D#6, 0x3E#6, 0x3F#6], op ∉ copMajors := by decide
      exact s.raises_ri (hall _ h) (decodeFields_reserved h ..)
    · exact s.raises_ri (notCop hop (by decide)) ((decode_special hop).trans (decodeSpecial_reserved (.inl h)))
    · exact s.raises_ri (notCop hop (by decide)) ((decode_special hop).trans (decodeSpecial_reserved (.inr h)))
    · exact s.raises_ri (notCop hop (by decide)) ((decode_madd hop).trans (decodeMadd_reserved h))
    · exact s.raises_ri (notCop hop (by decide)) ((decode_regimm hop).trans (decodeRegimm_reserved h))
  · have special : opOf w = 0 → decodeSpecial (rsOf w) (rtOf w) (rdOf w) (shamtOf w) (codeOf w) (functOf w) = .unusedField →
        stops .unusedField := fun hop h => s.stops_unusedField (notCop hop (by decide)) ((decode_special hop).trans h)
    rintro (⟨hop, hf, h⟩ | ⟨hop, hf, h⟩ | ⟨hop, hf, h⟩ | ⟨hop, hf, h⟩ | ⟨hop, hf, h⟩ | ⟨hop, hf, h⟩ | ⟨hop, hf, h⟩ | ⟨hop, hf, h⟩ |
      ⟨hop, h⟩ | ⟨hop, h⟩)
    · exact special hop (decodeSpecial_unused_shamt h _ hf)
    · exact special hop (decodeSpecial_unused_rs h _ hf)
    · exact special hop (decodeSpecial_unused_rt_rd_shamt h _ hf)
    · exact special hop (by rw [hf]; exact decodeSpecial_unused_rt_shamt h)
    · exact special hop (by rw [hf]; exact decodeSpecial_unused_code h)
    · exact special hop (decodeSpecial_unused_rs_rt_shamt h _ hf)
    · exact special hop (decodeSpecial_unused_rd_shamt h _ hf)
    · exact s.stops_unusedField (notCop hop (by decide)) ((decode_madd hop).trans (decodeMadd_unused hf h))
    · exact s.stops_unusedField (notCop hop (by decide)) (by rw [decode, hop]; exact decodeFields_unused_rs h ..)
    · have hall : ∀ op ∈ [0x06#6, 0x07#6, 0x16#6, 0x17#6], op ∉ copMajors := by decide
      exact s.stops_unusedField (hall _ hop) (decodeFields_unused_rt h _ hop ..)
  · intro hop reserved unused
    have hri : reserved → s.execWord w = s.withCop0 (.next (s.raise .ri)) := fun h =>
      (State.execWord_reserved (decode_cop0_reserved hop h)).trans (State.copWord_zero hop)
    have hun : ¬ reserved → unused → s.execWord w = s.withCop0 (.refused .unusedField) := fun hr h =>
      (State.execWord_unusedField (decode_cop0_unused hop hr h)).trans (State.copWord_zero hop)
    refine ⟨fun hu => ⟨fun h => (hri h).trans (State.withCop0_usable hu), fun hr h => (hun hr h).trans (State.withCop0_usable hu)⟩,
      fun hu h => ?_⟩
    by_cases hr : reserved
    · exact (hri hr).trans (State.withCop0_unusable hu)
    · exact (hun hr (h.resolve_left hr)).trans (State.withCop0_unusable hu)
  · intro z hz hop h25 other unused
    obtain ⟨c, hd⟩ := decode_cop hz hop
    have h4 : (rsOf w).getLsbD 4 = false := (rsOf_getLsbD_four w).trans h25
    have habsent : other → s.execWord w = s.withCop z (.refused .coprocessorAbsent) := fun h =>
      (State.execWord_copUndescribed (hd.trans (c.decode_other h4 h))).trans (State.copWord_cop hz hop)
    have hun : unused → s.execWord w = s.withCop z (.refused .unusedField) := fun ⟨hrs, h⟩ =>
      (State.execWord_unusedField (hd.trans (c.decode_unused h _ hrs))).trans (State.copWord_cop hz hop)
    refine ⟨fun hu => ⟨fun h => (habsent h).trans (State.withCop_usable hu), fun h => (hun h).trans (State.withCop_usable hu)⟩,
      fun hu h => ?_⟩
    rcases h with h | h
    · exact (habsent h).trans (State.withCop_unusable hu)
    · exact (hun h).trans (State.withCop_unusable hu)

end Sys2Proof.Machine
end

section
/-!
SUPPORT and PROOFS. The fetch of a word that has been placed for it (O6).
-/

namespace Sys2Proof.Machine

/-- On a free bus a transaction with memory that is no card's is acknowledged at once (R188, R216). -/
theorem State.transact_memory {s : State} (hh : s.dev.biu.held = none) (ho : s.dev.biu.turn ≠ .over) (hg : s.dev.granted = false) {r : Region}
    (hr : r.card = none) (u : BusUser) (key : Nat) (a : Attach) (be : BitVec 4) (write : Bool) :
    ∃ v, s.transact u (.cells r key a) be write = .ok true v := by
  have hheeds : ∀ b : Biu, b.heeds (.cells r key a) = none := fun b => by rw [Biu.heeds, hr]; rfl
  have hacks : ∀ d : Dev, d.acks (.cells r key a) = true := fun d => by rw [Dev.acks, hheeds]; rfl
  refine ⟨(s.startBus u (.cells r key a) be write).endBus, ?_⟩
  have htime : (s.dev.biu.start u (.cells r key a)).timedOut = false := Biu.start_timedOut _ _ nofun
  rw [State.transact_free hh ho hg, State.acknowledge, State.startBus_biu, htime, if_neg Bool.false_ne_true, hacks, if_pos rfl]

/-- An uncached fetch with an empty write buffer reads the cells that its address reaches (R121, R281). -/
theorem State.fetch_uncached {s v : State} {pa : Word} {r : Region} {key : Nat} {a : Attach} (hpc : s.pc.toNat % 4 = 0)
    (ht : s.translate .fetch s.pc = .ok (pa, false) s) (hw : s.wb = []) (hc : s.target pa = .ok (.cells r key a)) (ha : a ≠ .nothing)
    (hv : s.transact .core (.cells r key a) 0xF false = .ok true v) : s.fetch = .ok (s.mem.readWord s.board.bigEndian key) v := by
  simp only [State.fetch, aligned, hpc, ht, Res.bind, State.drainAll_empty hw, State.busRead_cells hc ha hv, decide_true, Bool.not_true,
    Bool.false_eq_true, if_false]

/-- The reset state with the word `w` in the boot ROM, where its first fetch reads. -/
def bootWith (w : Word) : State :=
  { State.reset with mem := State.reset.mem.writeLanes State.reset.board.bigEndian 0x53C00000 w 0xF }

/-- The word is where the reset state fetches: uncached, at the boot vector (R1062). -/
theorem reset_fetchCell : State.reset.fetchCell = some (0x1FC00000, false, 0x53C00000) := rfl

theorem reset_withFetchWord {w : Nat} (h : w < 2 ^ 32) : State.reset.withFetchWord 32 w = bootWith (BitVec.ofNat 32 w) := by
  rw [State.withFetchWord, Nat.mod_eq_of_lt h, State.placeWord, reset_fetchCell]
  rfl

section
variable (x : Word)

theorem bootWith_translate : (bootWith x).translate .fetch (bootWith x).pc = .ok (0x1FC00000, false) (bootWith x) := by
  have hmode : State.reset.userMode (AccessKind.fetch.draw tagStatus) = false := by decide
  have hseg : segmentOf 0xBFC00000 = .direct 0x1FC00000 false := by decide
  exact State.translate_direct hmode hseg

theorem bootWith_target : (bootWith x).target 0x1FC00000 = .ok (.cells (.cs 0) 0x53C00000 .rom) :=
  calc (bootWith x).target 0x1FC00000 = State.reset.target 0x1FC00000 := by simp only [State.target, bootWith]
    _ = _ := rfl

theorem bootWith_transact : ∃ v, (bootWith x).transact .core (.cells (.cs 0) 0x53C00000 .rom) 0xF false = .ok true v := by
  have hturn : State.reset.dev.biu.turn ≠ .over := by decide
  have hbus : State.reset.dev.granted = false := rfl
  exact State.transact_memory (s := bootWith x) (r := .cs 0) rfl hturn hbus rfl ..

end

/-- Settles O6: the fetch reads the word back from the cells of the boot ROM. -/
theorem placedWordIsFetched : Obligations.PlacedWordIsFetched := by
  intro w hw
  rw [reset_withFetchWord hw]
  obtain ⟨v, hv⟩ := bootWith_transact (BitVec.ofNat 32 w)
  have hpc : (0xBFC00000 : Word).toNat % 4 = 0 := by decide
  have hrom : Attach.rom ≠ .nothing := nofun
  have hread := Mem.readWord_writeLanes State.reset.mem State.reset.board.bigEndian 0x53C00000 (BitVec.ofNat 32 w) State.reset_mem_wf
  exact ⟨v, (State.fetch_uncached hpc (bootWith_translate _) rfl (bootWith_target _) hrom hv).trans (congrArg (Res.ok · v) hread)⟩

end Sys2Proof.Machine
end

section
/-!
SUPPORT and PROOFS. The exceptions of an access: that of its translation, and the bus error where nothing answers (O25).
-/

namespace Sys2Proof.Machine

section
variable {s t : State} {va pa : Word} {size : Nat} {be : BitVec 4} {e : Exc}

/-- A load raises the exception that its read ends in. -/
theorem State.load_exc (h : s.loadWord va size be = .exc e t) (rt : Reg) (kind : LoadKind) (f : Word → Word) :
    s.load rt va size be kind f = .next (t.raise e) := by
  rw [State.load, h]
  rfl

/-- A load raises the exception of its translation (R281, R420). -/
theorem State.load_translation (h : s.translate .load va = .exc e s) (hs : va.toNat % size = 0) (rt : Reg) (be : BitVec 4) (kind : LoadKind)
    (f : Word → Word) : s.load rt va size be kind f = .next (s.raise e) := by
  refine State.load_exc ?_ rt kind f
  rw [State.loadWord_eq, if_pos hs, h]
  rfl

/-- A store raises the exception of its translation (R420). -/
theorem State.store_translation (h : s.translate .store va = .exc e s) (hs : va.toNat % size = 0) (data : Word) (be : BitVec 4) :
    s.store va size data be = .next (s.raise e) := by
  have hw : s.storeWord va size data be = .exc e s := by
    simp only [State.storeWord, aligned, hs, h, Res.bind, decide_true, Bool.not_true, Bool.false_eq_true, if_false]
  rw [State.store, hw]
  rfl

/-- A step that fetches raises the exception that the fetch ends in. -/
theorem State.fetchExec_exc (hp : ∀ w, s.pending ≠ .exec w) (h : s.fetch = .exc e t) : s.fetchExec = .next (t.raise e) := by
  unfold State.fetchExec
  split
  case h_1 w hw => exact absurd hw (hp w)
  case h_2 => rw [h]

/-- An aligned fetch translates, and reads uncached where it may (R281). -/
theorem State.fetch_aligned (hpc : s.pc.toNat % 4 = 0) :
    s.fetch = (s.translate .fetch s.pc).bind fun p t =>
      if p.2 then if t.isRegister p.1 then .refused .frCached else t.cachedFetch p.1
      else t.drainAll.bind fun _ t => t.busRead .core p.1 0xF .ibe := by
  simp only [State.fetch, aligned, hpc, decide_true, Bool.not_true, Bool.false_eq_true, if_false]

end

/-- Where nothing answers an access of the core, and the watch dog ends its transaction at once: the write buffer is empty, the bus is free,
and this step has not given it up. -/
structure State.TimesOut (s : State) (pa : Word) : Prop where
  wb : s.wb = []
  memory : s.isRegister pa = false
  silent : s.target (wordAddr pa) = .ok .silent
  watch : s.dev.biu.enWatch = true
  held : s.dev.biu.held = none
  turn : s.dev.biu.turn ≠ .over
  granted : s.dev.granted = false

section
variable {s : State} {pa : Word} (h : s.TimesOut pa)
include h

/-- The read ends in the bus error, and only the modules have changed (R242, R471). -/
theorem State.TimesOut.busRead (be : BitVec 4) (e : Exc) :
    ∃ t : State, s.busRead .core (wordAddr pa) be e = .exc e t ∧ t = { s with dev := t.dev } := by
  obtain ⟨t, ht, hs, -⟩ := State.transact_silent_ends (u := .core) h.held h.turn h.granted h.watch be false
  exact ⟨t, by simp only [State.busRead, h.silent, ht, Res.bind, Bool.not_false, if_true], hs⟩

theorem State.TimesOut.dataRead (be : BitVec 4) : ∃ t : State, s.dataRead pa false be = .exc .dbe t ∧ t = { s with dev := t.dev } := by
  obtain ⟨t, ht, hs⟩ := h.busRead be .dbe
  have hc : s.registerCheck pa false be = none := State.registerCheck_memory (by rw [State.mapAhead_empty h.wb]; exact h.memory) false be
  exact ⟨t, by simp only [State.dataRead, Bool.false_eq_true, if_false, State.drainAll_empty h.wb, Res.bind, hc, ht], hs⟩

theorem State.TimesOut.load {va : Word} {size : Nat} (hv : s.translate .load va = .ok (pa, false) s) (hs : va.toNat % size = 0) (rt : Reg)
    (be : BitVec 4) (kind : LoadKind) (f : Word → Word) :
    ∃ t : State, s.load rt va size be kind f = .next (t.raise .dbe) ∧ t = { s with dev := t.dev } := by
  obtain ⟨t, ht, hd⟩ := h.dataRead be
  exact ⟨t, State.load_exc (by rw [State.loadWord_eq, if_pos hs, hv]; exact ht) rt kind f, hd⟩

theorem State.TimesOut.fetchExec (hpc : s.pc.toNat % 4 = 0) (hp : ∀ w, s.pending ≠ .exec w)
    (hv : s.translate .fetch s.pc = .ok (pa, false) s) (ha : pa = wordAddr pa) :
    ∃ t : State, s.fetchExec = .next (t.raise .ibe) ∧ t = { s with dev := t.dev } := by
  obtain ⟨t, ht, hd⟩ := h.busRead 0xF .ibe
  rw [← ha] at ht
  refine ⟨t, State.fetchExec_exc hp ?_, hd⟩
  simp only [State.fetch_aligned hpc, hv, Res.bind, Bool.false_eq_true, if_false, State.drainAll_empty h.wb, ht]

end

/-- Settles O25: alignment passes, and the exception that ends the translation or the read is the one that is raised. -/
theorem accessExceptions : Obligations.AccessExceptions := by
  intro s rs rt imm va byteLoads halfLoads timesOut
  have settled : ∀ {pa}, timesOut pa → s.TimesOut pa := fun ⟨hw, hm, hs, hd, hh, ho, hg⟩ => ⟨hw, hm, hs, hd, hh, ho, hg⟩
  simp only [byteLoads, halfLoads, List.forall_mem_cons, List.not_mem_nil, false_imp_iff, implies_true, and_true]
  refine ⟨fun e h => ?_, fun e h => ?_, fun e hpc hp h => ?_, fun pa hv h => ?_, fun pa hpc hp hv ha h => (settled h).fetchExec hpc hp hv ha⟩
  · have hload {size : Nat} := State.load_translation (size := size) h
    have hbyte := hload (Nat.mod_one _)
    exact ⟨⟨hbyte .., hbyte .., hbyte .., hbyte ..⟩, fun hs => ⟨hload hs .., hload hs ..⟩, fun hs => hload hs ..⟩
  · have hstore {size : Nat} := State.store_translation (size := size) h
    have hbyte := hstore (Nat.mod_one _)
    exact ⟨⟨hbyte .., hbyte .., hbyte ..⟩, fun hs => hstore hs .., fun hs => hstore hs ..⟩
  · refine State.fetchExec_exc hp ?_
    rw [State.fetch_aligned hpc, h]
    rfl
  · have hload {size : Nat} := (settled h).load (size := size) hv
    have hbyte := hload (Nat.mod_one _)
    exact ⟨⟨hbyte .., hbyte .., hbyte .., hbyte ..⟩, fun hs => ⟨hload hs .., hload hs ..⟩, fun hs => hload hs ..⟩

end Sys2Proof.Machine
end

section
/-!
SUPPORT and PROOFS. What a step of the core can do to coprocessor 0 and the TLB while coprocessor 0 is not usable (O59).
-/

namespace Sys2Proof.Machine

/-! ## The window of a settled state -/

/-- Traces that are only marked anew bring no write of Status into the window. -/
theorem StatusSettled.of_map {s t : State} (h : StatusSettled s) {f : Trace → Trace} (hf : ∀ {x w}, f x = .cp0 w → x = .cp0 w)
    (hr : t.recent = s.recent.map f) (hb : t.board = s.board) : StatusSettled t := by
  intro old hm
  rw [State.window, hr, hb, ← List.map_take] at hm
  obtain ⟨x, hx, he⟩ := List.mem_map.mp hm
  exact h old (hf he ▸ hx)

/-- Completing an instruction that does not write Status brings none into the window. -/
theorem StatusSettled.advance {s : State} (h : StatusSettled s) (pc npc : Word) (ds : Bool) {x : Trace}
    (hx : ∀ old, x ≠ .cp0 (.status old)) : StatusSettled (s.advance pc npc ds x) := by
  intro old hm
  have hw : (s.advance pc npc ds x).window = (x :: s.recent.map Trace.settle).take s.board.hazardSlots := s.retire_window x
  rw [hw] at hm
  cases hz : s.board.hazardSlots with
  | zero => simp [hz] at hm
  | succ n =>
    rw [hz, List.take_succ_cons, ← List.map_take] at hm
    rcases List.mem_cons.mp hm with he | hm
    · exact hx old he.symm
    · obtain ⟨y, hy, he⟩ := List.mem_map.mp hm
      have hwin : y ∈ s.window := by rw [State.window, hz]; exact List.take_subset_take_left _ (Nat.le_succ n) hy
      exact h old (Trace.settle_cp0 he ▸ hwin)

/-- Noting what an instruction uses makes no coprocessor 0 write of another trace. -/
theorem Trace.note_cp0 {uses : List Reg} {dest : Option Reg} {late : Bool} {t : Trace} {w : Cp0Write} (h : t.note uses dest late = .cp0 w) :
    t = .cp0 w := by
  unfold Trace.note at h
  split at h
  case h_1 =>
    split at h
    · cases h
    · split at h <;> cases h
  case h_2 => split at h <;> cases h
  case h_3 => exact h

/-! ## Coprocessor 0 left alone -/

/-- Coprocessor 0, the TLB and the agenda are as before, and no write of Status is new to the window. -/
structure KeepsCop0 (s t : State) : Prop where
  cp0 : t.cp0 = s.cp0
  tlb : t.tlb = s.tlb
  agenda : t.agenda = s.agenda
  settled : StatusSettled s → StatusSettled t

namespace KeepsCop0
variable {s t u : State}

theorem trans (h : KeepsCop0 s t) (k : KeepsCop0 t u) : KeepsCop0 s u :=
  ⟨k.cp0.trans h.cp0, k.tlb.trans h.tlb, k.agenda.trans h.agenda, fun hs => k.settled (h.settled hs)⟩

theorem of_recent (hc : t.cp0 = s.cp0) (ht : t.tlb = s.tlb) (ha : t.agenda = s.agenda) (hr : t.recent = s.recent) (hb : t.board = s.board) :
    KeepsCop0 s t :=
  ⟨hc, ht, ha, fun h => h.of_map (f := id) id (by rw [hr, List.map_id]) hb⟩

theorem refl (s : State) : KeepsCop0 s s := of_recent rfl rfl rfl rfl rfl

theorem of_transactions (h : Transactions s t) : KeepsCop0 s t := of_recent h.cp0 h.tlb h.agenda h.recent h.board

theorem advance (h : KeepsCop0 s t) (pc npc : Word) (ds : Bool) {x : Trace} (hx : ∀ old, x ≠ .cp0 (.status old)) :
    KeepsCop0 s (t.advance pc npc ds x) :=
  h.trans ⟨rfl, rfl, rfl, fun hs => hs.advance pc npc ds hx⟩

/-- Writing a register and completing. -/
theorem retire_setReg (h : KeepsCop0 s t) (rd : Reg) (v : Word) {x : Trace} (hx : ∀ old, x ≠ .cp0 (.status old)) :
    KeepsCop0 s ((t.setReg rd v).retire x) :=
  (h.trans (u := t.setReg rd v) (of_recent rfl rfl rfl rfl rfl)).advance _ _ _ hx

/-- Free values for the registers of an earlier `mfhi` or `mflo` (R1081). -/
theorem of_spoil {ts : List Trace} (h : s.spoil ts = .ok t) : KeepsCop0 s t := by
  induction ts generalizing s with
  | nil => cases h; exact refl _
  | cons x ts ih =>
    cases x with
    | hiLoRead rd used =>
      cases used with
      | true => cases h
      | false => exact trans (t := State.setReg _ rd _) (of_recent rfl rfl rfl rfl rfl) (ih h)
    | _ => exact ih h

end KeepsCop0

/-! ## Entering kernel mode -/

/-- Where an exception or an NMI goes on (R467, R476). -/
def entryPoints : List Word := [0x80000000, 0x80000080, 0xBFC00000, 0xBFC00100, 0xBFC00180]

theorem vectorOf_mem_entryPoints (bev utlb : Bool) : vectorOf bev utlb ∈ entryPoints := by cases bev <;> cases utlb <;> decide

/-- An exception or an NMI has been taken: kernel mode, at one of its vectors, with the TLB as before. -/
structure EntersKernel (s t : State) : Prop where
  tlb : t.tlb = s.tlb
  kernel : t.cp0.status.getLsbD 1 = false
  pc : t.pc ∈ entryPoints

theorem EntersKernel.raise {s t : State} (h : t.tlb = s.tlb) (e : Exc) : EntersKernel s (t.raise e) where
  tlb := h
  kernel := by simp [Cp0.raise, pushStatus]
  pc := vectorOf_mem_entryPoints _ _

theorem EntersKernel.takeNmi (s : State) : EntersKernel s s.takeNmi where
  tlb := rfl
  kernel := by simp [State.takeNmi, nmiStatus]
  pc := List.mem_cons_of_mem _ (List.mem_cons_of_mem _ List.mem_cons_self)

/-! ## Outcomes that leave coprocessor 0 alone or enter kernel mode -/

/-- A next state, where the outcome is one, has coprocessor 0 and the TLB of `s`, or is in kernel mode at a vector. -/
def Confined (s : State) (o : Host.Outcome State Fault Refusal) : Prop := ∀ t, o = .next t → KeepsCop0 s t ∨ EntersKernel s t

namespace Confined
variable {s t : State} {o : Host.Outcome State Fault Refusal}

theorem next (h : KeepsCop0 s t) : Confined s (.next t) := fun _ e => by cases e; exact .inl h

theorem raise (h : KeepsCop0 s t) (e : Exc) : Confined s (.next (t.raise e)) := fun _ he => by cases he; exact .inr (.raise h.tlb e)

theorem refused (r : Refusal) : Confined s (.refused r) := fun _ e => by cases e

theorem of_keeps (h : KeepsCop0 s t) (k : Confined t o) : Confined s o := fun u hu =>
  (k u hu).imp h.trans fun ⟨htlb, hk, hpc⟩ => ⟨htlb.trans h.tlb, hk, hpc⟩

theorem checkWrap (v : State) (h : Confined s o) : Confined s (v.checkWrap o) := by
  unfold State.checkWrap
  split
  · split
    · exact refused _
    · exact h
  · exact h

/-- An exception of a part of an instruction is taken (R465). -/
theorem outcome {r : Res Unit} (h : r.All (KeepsCop0 s)) : Confined s r.outcome := by
  cases r with
  | ok a t => exact next h
  | exc e t => exact raise h e
  | wait t => exact next h
  | refused r => exact refused r

/-- Bus transactions, then `k`. -/
theorem of_transactions {α : Type} {r : Res α} (h : r.All (Transactions s)) {k : α → State → Res Unit}
    (hk : ∀ a t, (k a t).All (KeepsCop0 t)) : Confined s (r.bind k).outcome :=
  outcome (h.bind (fun a t ht => (hk a t).mono fun _ => (KeepsCop0.of_transactions ht).trans) fun _ => KeepsCop0.of_transactions)

end Confined

/-! ## The instructions -/

section
variable (s : State)

theorem State.confined_alu (rd : Reg) (v : Word) : Confined s (s.alu rd v) := .next ((KeepsCop0.refl s).retire_setReg rd v nofun)

theorem State.confined_aluTrap (rd : Reg) (overflow : Bool) (v : Word) : Confined s (s.aluTrap rd overflow v) := by
  unfold State.aluTrap
  split
  · exact .raise (.refl s) .ov
  · exact s.confined_alu rd v

theorem State.confined_hiLoRead (rd : Reg) (v : Word) : Confined s (.next ((s.setReg rd v).retire (hiLoTrace rd))) :=
  .next ((KeepsCop0.refl s).retire_setReg rd v fun old => by unfold hiLoTrace; split <;> nofun)

theorem State.confined_writeHiLo {k : State → State} (hk : ∀ t, KeepsCop0 t (k t)) : Confined s (s.writeHiLo k) := by
  unfold State.writeHiLo
  split
  case h_1 t ht => exact .next (((KeepsCop0.of_spoil ht).trans (hk t)).advance _ _ _ nofun)
  case h_2 => exact .refused _

theorem State.confined_writeAcc (rd : Reg) (v : BitVec 64) : Confined s (s.writeAcc rd v) :=
  s.confined_writeHiLo fun _ => .of_recent rfl rfl rfl rfl rfl

theorem State.confined_writeDiv (zero : Bool) (q r : Word) : Confined s (s.writeDiv zero q r) :=
  s.confined_writeHiLo fun _ => .of_recent rfl rfl rfl rfl rfl

/-- A register written or not, then a jump, a branch taken or not, or a nullified delay slot. -/
theorem State.confined_transfer {t : State} (ht : KeepsCop0 s t) (pc npc : Word) (ds : Bool) {x : Trace}
    (hx : ∀ old, x ≠ .cp0 (.status old)) : Confined s (s.transfer (t.advance pc npc ds x)) := by
  unfold State.transfer
  split
  · exact .refused _
  · exact .next (ht.advance pc npc ds hx)

theorem State.keepsCop0_link : KeepsCop0 s s.link := .of_recent rfl rfl rfl rfl rfl

theorem State.confined_branch (taken : Bool) (imm : BitVec 16) : Confined s (s.branch taken imm) := by
  cases taken <;> exact s.confined_transfer (.refl s) _ _ _ nofun

theorem State.confined_branchLikely (taken : Bool) (imm : BitVec 16) : Confined s (s.branchLikely taken imm) := by
  cases taken <;> exact s.confined_transfer (.refl s) _ _ _ nofun

theorem State.confined_branchLink (rs : Reg) (taken : Bool) (imm : BitVec 16) : Confined s (s.branchLink rs taken imm) := by
  unfold State.branchLink
  split
  · exact .refused _
  · cases taken <;> exact s.confined_transfer s.keepsCop0_link _ _ _ nofun

theorem State.confined_branchLinkLikely (rs : Reg) (taken : Bool) (imm : BitVec 16) : Confined s (s.branchLinkLikely rs taken imm) := by
  unfold State.branchLinkLikely
  split
  · exact .refused _
  · cases taken <;> exact s.confined_transfer s.keepsCop0_link _ _ _ nofun

theorem State.confined_jalr (rs rd : Reg) : Confined s (execJalr rs rd s) := by
  unfold execJalr
  split
  · exact .refused _
  · exact s.confined_transfer (t := s.setReg rd _) (.of_recent rfl rfl rfl rfl rfl) _ _ _ nofun

theorem State.confined_load (rt : Reg) (va : Word) (size : Nat) (be : BitVec 4) (kind : LoadKind) (f : Word → Word) :
    Confined s (s.load rt va size be kind f) :=
  .of_transactions (s.loadWord_frame va size be) fun _ t => (KeepsCop0.refl t).retire_setReg _ _ nofun

theorem State.confined_store (va : Word) (size : Nat) (data : Word) (be : BitVec 4) : Confined s (s.store va size data be) :=
  .of_transactions (s.storeWord_frame va size data be) fun _ t => (KeepsCop0.refl t).advance _ _ _ nofun

theorem State.confined_sync : Confined s (execSync s) :=
  .of_transactions s.drainAll_frame.1 fun _ t => (KeepsCop0.refl t).advance _ _ _ nofun

theorem State.confined_withCop (z : Nat) {k : Host.Outcome State Fault Refusal} (hk : Confined s k) : Confined s (s.withCop z k) := by
  unfold State.withCop
  split
  · exact hk
  · exact .raise (.refl s) _

end

/-- User mode with CU0 clear, and no write of Status in the hazard window: the premises under which coprocessor 0 is out of reach (R320). -/
structure State.Cop0Closed (s : State) : Prop where
  settled : StatusSettled s
  user : s.cp0.status.getLsbD 1 = true
  cu0 : s.cp0.status.getLsbD 28 = false

namespace State.Cop0Closed
variable {s t : State} (h : s.Cop0Closed)
include h

theorem of_keeps (k : KeepsCop0 s t) : t.Cop0Closed := ⟨k.settled h.settled, by rw [k.cp0, h.user], by rw [k.cp0, h.cu0]⟩

theorem unusable : s.cop0Usable = false := by
  have h1 : bitOf (s.cp0.status &&& 0x10000002) 1 = s.cp0.status.getLsbD 1 := by simp [bitOf]
  have h28 : bitOf (s.cp0.status &&& 0x10000002) 28 = s.cp0.status.getLsbD 28 := by simp [bitOf]
  simp only [State.cop0Usable, h.settled.seenStatus, h1, h28, h.user, h.cu0, Bool.not_true, Bool.or_false]

/-- The check of usability ends every coprocessor 0 instruction, whatever it would do. -/
theorem withCop0 (k : Host.Outcome State Fault Refusal) : Confined s (s.withCop0 k) := by
  rw [State.withCop0_unusable h.unusable]
  exact .raise (.refl s) _

/-- Every instruction, by the shared operation that it is. -/
theorem exec : ∀ i : Instr, Confined s (Machine.exec i s)
  | .add .. | .sub .. | .addi .. => s.confined_aluTrap _ _ _
  | .addu .. | .subu .. | .and .. | .or .. | .xor .. | .nor .. | .slt .. | .sltu .. | .addiu .. | .slti .. | .sltiu .. | .andi .. | .ori ..
  | .xori .. | .lui .. | .sll .. | .srl .. | .sra .. | .sllv .. | .srlv .. | .srav .. => s.confined_alu _ _
  | .mult .. | .multu .. | .madd .. | .maddu .. => s.confined_writeAcc _ _
  | .div .. | .divu .. => s.confined_writeDiv _ _ _
  | .mthi _ | .mtlo _ => s.confined_writeHiLo fun _ => .of_recent rfl rfl rfl rfl rfl
  | .mfhi _ | .mflo _ => s.confined_hiLoRead _ _
  | .j _ | .jr _ => s.confined_transfer (.refl s) _ _ _ nofun
  | .jal _ => s.confined_transfer s.keepsCop0_link _ _ _ nofun
  | .jalr .. => s.confined_jalr _ _
  | .beq .. | .bne .. | .blez .. | .bgtz .. | .bltz .. | .bgez .. => s.confined_branch _ _
  | .beql .. | .bnel .. | .blezl .. | .bgtzl .. | .bltzl .. | .bgezl .. => s.confined_branchLikely _ _
  | .bltzal .. | .bgezal .. => s.confined_branchLink _ _ _
  | .bltzall .. | .bgezall .. => s.confined_branchLinkLikely _ _ _
  | .lb .. | .lbu .. | .lh .. | .lhu .. | .lw .. | .lwl .. | .lwr .. => s.confined_load _ _ _ _ _ _
  | .sb .. | .sh .. | .sw .. | .swl .. | .swr .. => s.confined_store _ _ _ _
  | .syscall _ | .brk _ => .raise (.refl s) _
  | .sync => s.confined_sync
  | .mfc0 .. | .mtc0 .. | .tlbp | .tlbr | .tlbwi | .tlbwr | .rfe | .deret => h.withCop0 _
  | .bc3f _ | .bc3t _ => s.confined_withCop _ (s.confined_branch _ _)
  | .mfc1 .. | .cfc1 .. | .mtc1 .. | .ctc1 .. | .cop1 _ | .bc1f _ | .bc1t _ | .bc1fl _ | .bc1tl _
  | .mfc2 .. | .cfc2 .. | .mtc2 .. | .ctc2 .. | .cop2 _ | .bc2f _ | .bc2t _ | .bc2fl _ | .bc2tl _
  | .mfc3 .. | .cfc3 .. | .mtc3 .. | .ctc3 .. | .cop3 _ | .bc3fl _ | .bc3tl _ => s.confined_withCop _ (.refused _)
  | .cache .. | .sdbbp _ | .lwc0 .. | .swc0 .. | .lwc1 .. | .swc1 .. | .lwc2 .. | .swc2 .. | .lwc3 .. | .swc3 .. => .refused _

/-! ## The core -/

theorem copWord (w : Word) {k : Host.Outcome State Fault Refusal} (hk : Confined s k) : Confined s (s.copWord w k) := by
  unfold State.copWord
  split
  · exact h.withCop0 k
  · exact s.confined_withCop 1 hk
  · exact s.confined_withCop 2 hk
  · exact s.confined_withCop 3 hk
  · exact hk

theorem trapWord (w : Word) (d : Decoded) : Confined s (s.trapWord w d) := by
  cases d with
  | instr i => exact h.exec i
  | reserved => exact h.copWord w (.raise (.refl s) .ri)
  | unusedField => exact h.copWord w (.refused _)
  | copUndescribed => exact h.copWord w (.refused _)

theorem execWord (w : Word) : Confined s (s.execWord w) := by
  have hp : KeepsCop0 s { s with pending := .exec w } := .of_recent rfl rfl rfl rfl rfl
  unfold State.execWord
  dsimp only
  split
  case h_1 i _ =>
    have hn : KeepsCop0 s (State.noteUse { s with pending := .exec w } i) :=
      hp.trans ⟨rfl, rfl, rfl, fun hs => hs.of_map Trace.note_cp0 rfl rfl⟩
    exact .of_keeps hn ((h.of_keeps hn).exec i)
  case h_2 => exact .of_keeps hp ((h.of_keeps hp).trapWord w _)

theorem fetchExec : Confined s s.fetchExec := by
  unfold State.fetchExec
  split
  case h_1 => exact (h.execWord _).checkWrap s
  case h_2 =>
    have hf : s.fetch.All (KeepsCop0 s) := s.fetch_frame.mono fun _ => KeepsCop0.of_transactions
    split <;> rename_i he <;> rw [he] at hf
    · exact Confined.checkWrap s (.of_keeps hf ((h.of_keeps hf).execWord _))
    · exact .raise hf _
    · exact .next (KeepsCop0.trans hf (.of_recent rfl rfl rfl rfl rfl))
    · exact .refused _

theorem coreStep : Confined s s.coreStep := by
  unfold State.coreStep
  split
  · exact .next (.refl s)
  · split
    · exact h.fetchExec
    · split
      · exact fun _ he => by cases he; exact .inr (.takeNmi s)
      · split
        · exact .raise (.refl s) .int
        · exact h.fetchExec

end State.Cop0Closed

/-- Settles O59: with an empty agenda the step is one of the core, every instruction of coprocessor 0 ends at the check of usability, and no
other operation of the core reaches coprocessor 0 but by an exception, an interrupt or an NMI. -/
theorem userModeKeepsCoprocessor0 : Obligations.UserModeKeepsCoprocessor0 := by
  intro s t ha hs hu hc hstep
  have hcore : s.coreStep = .next t := by rwa [step, State.stepOf, ha] at hstep
  rcases State.Cop0Closed.coreStep ⟨hs, hu, hc⟩ t hcore with hk | ⟨htlb, hk, hpc⟩
  · exact .inl ⟨hk.cp0, hk.tlb, hk.settled hs, hk.agenda.trans ha⟩
  · exact .inr ⟨htlb, hk, hpc⟩

end Sys2Proof.Machine
end

section
/-!
SUPPORT and PROOFS. The mode stack, and the instructions of coprocessor 0 where it is usable and where it is not (O36, O37, O40 to O45).
-/

namespace Sys2Proof.Machine

/-! ## The mode stack (R327, R465) -/

/-- The push clears bits 1:0 and moves bits 3:0 up by two. -/
theorem getLsbD_pushStatus (st : Word) (i : Nat) :
    (pushStatus st).getLsbD i = if i < 2 then false else if i < 6 then st.getLsbD (i - 2) else st.getLsbD i := by
  by_cases hi : i < 32
  · simp only [pushStatus, BitVec.getLsbD_or, BitVec.getLsbD_and, BitVec.getLsbD_shiftLeft]
    interval_cases i <;> simp
  · have h : 32 ≤ i := Nat.le_of_not_lt hi
    rw [if_neg (by omega), if_neg (by omega), BitVec.getLsbD_of_ge _ _ h, BitVec.getLsbD_of_ge _ _ h]

/-- The pop moves bits 5:2 down by two. -/
theorem getLsbD_popStatus (st : Word) (i : Nat) : (popStatus st).getLsbD i = if i < 4 then st.getLsbD (i + 2) else st.getLsbD i := by
  by_cases hi : i < 32
  · simp only [popStatus, BitVec.getLsbD_or, BitVec.getLsbD_and, BitVec.getLsbD_ushiftRight]
    interval_cases i <;> simp
  · have h : 32 ≤ i := Nat.le_of_not_lt hi
    rw [if_neg (by omega), BitVec.getLsbD_of_ge _ _ h, BitVec.getLsbD_of_ge _ _ h]

theorem popStatus_low (st : Word) : (popStatus st).extractLsb' 0 4 = st.extractLsb' 2 4 := by
  apply BitVec.eq_of_getLsbD_eq
  intro i hi
  simp only [BitVec.getLsbD_extractLsb', getLsbD_popStatus, hi, decide_true, Nat.zero_add, if_true, Nat.add_comm 2]

theorem popStatus_high (st : Word) : (popStatus st).extractLsb' 4 28 = st.extractLsb' 4 28 := by
  apply BitVec.eq_of_getLsbD_eq
  intro i hi
  have h4 : ¬ 4 + i < 4 := by omega
  simp only [BitVec.getLsbD_extractLsb', getLsbD_popStatus, h4, if_false]

/-- Bits 3:0 come back from bits 5:2. -/
theorem popStatus_pushStatus_low (st : Word) : (popStatus (pushStatus st)).extractLsb' 0 4 = st.extractLsb' 0 4 := by
  apply BitVec.eq_of_getLsbD_eq
  intro i hi
  have hpush : ¬ i + 2 < 2 ∧ i + 2 < 6 := by omega
  simp only [BitVec.getLsbD_extractLsb', getLsbD_popStatus, getLsbD_pushStatus, Nat.zero_add, hi, hpush, if_true, if_false, decide_true,
    Bool.true_and, Nat.add_sub_cancel]

/-- Settles O37: the pop takes bits 3:0 from where the push put them, and the push has cleared bits 1:0. -/
theorem returnUndoesEntry : Obligations.ReturnUndoesEntry := fun s _ =>
  ⟨popStatus_pushStatus_low s.cp0.status, getLsbD_pushStatus s.cp0.status 1, getLsbD_pushStatus s.cp0.status 0⟩

/-! ## Where coprocessor 0 is not usable -/

/-- Settles O40: the check of usability comes before anything else of these instructions. -/
theorem coprocessor0Unusable : Obligations.Coprocessor0Unusable := by
  intro s rt rd hu
  have hraise {i : Instr} {k} (h : exec i s = s.withCop0 k) : exec i s = .next (s.raise (.cpu 0)) := h.trans (State.withCop0_unusable hu)
  simp only [List.forall_mem_cons, List.not_mem_nil, false_imp_iff, implies_true, and_true]
  exact ⟨hraise rfl, hraise rfl, hraise rfl, hraise rfl, hraise rfl, hraise rfl, hraise rfl, hraise rfl⟩

/-! ## Moves to coprocessor 0 and `rfe` (R326, R327) -/

/-- An instruction that replaces coprocessor 0, or marks the traces anew, and completes changes coprocessor 0 alone. -/
theorem ChangesCp0.of_retire {i : Instr} {s : State} {c : Cp0} {ts : List Trace} {x : Trace}
    (h : exec i s = .next (State.retire { s with cp0 := c, recent := ts } x)) : ChangesCp0 i s c :=
  ⟨_, h, rfl, fun r => State.retire_reg _ x r, ⟨rfl, rfl⟩, ⟨rfl, rfl, rfl, fun _ => rfl, rfl, rfl, rfl, rfl, rfl⟩, ⟨rfl, rfl, rfl, rfl⟩⟩

/-- `mtc0` of a listed register changes coprocessor 0 as the register's write says. -/
theorem ChangesCp0.mtc0 {s : State} (hu : s.cop0Usable = true) {rt rd : Reg} {c : Cp0} {x : Trace}
    (hw : s.cp0.write rd (s.opReg rt) = some (c, x)) : ChangesCp0 (.mtc0 rt rd) s c := by
  have h : exec (.mtc0 rt rd) s = .next (State.retire { s with cp0 := c } x) :=
    (State.withCop0_usable hu).trans (by rw [hw])
  exact .of_retire h

/-- Settles O42: the writable bits of each register are the mask of its write. -/
theorem mtc0Writes : Obligations.Mtc0Writes := by
  intro s rt hu v c sel
  refine ⟨.mtc0 hu rfl, .mtc0 hu rfl, .mtc0 hu rfl, .mtc0 hu rfl, .mtc0 hu rfl, .mtc0 hu rfl, ?_⟩
  simp only [List.forall_mem_cons, List.not_mem_nil, false_imp_iff, implies_true, and_true]
  exact ⟨.mtc0 hu rfl, .mtc0 hu rfl, .mtc0 hu rfl, .mtc0 hu rfl⟩

/-- Settles O36: `rfe` completes with the pop of the mode stack. -/
theorem returnFromException : Obligations.ReturnFromException := fun s hu =>
  ⟨popStatus s.cp0.status, .of_retire (State.withCop0_usable hu), popStatus_low _, popStatus_high _⟩

/-! ## Moves from coprocessor 0 (R321) -/

/-- `mfc0` of a listed register writes what a read of it gives. -/
theorem WritesOnly.mfc0 {s : State} (hu : s.cop0Usable = true) (rt : Reg) {rd : Reg} {v : Word} (hr : s.cp0Read rd = some v) :
    WritesOnly (.mfc0 rt rd) s rt v := by
  have h : exec (.mfc0 rt rd) s = .next ((s.setReg rt v).retire (.loaded rt (s.reg rt) .other)) :=
    (State.withCop0_usable hu).trans (by rw [hr])
  exact ⟨_, h, s.setReg_retire_frame rt v _⟩

/-- Cause, field by field (R43). -/
theorem State.causeWord_eq_append (s : State) :
    s.causeWord = BitVec.ofBool s.cp0.bd ++ 0#1 ++ s.cp0.ce ++ 0#12 ++ s.ip ++ 0#1 ++ s.cp0.exc ++ 0#2 := by
  apply BitVec.eq_of_getLsbD_eq
  intro i hi
  simp only [State.causeWord, placed, BitVec.getLsbD_or, getLsbD_boolAt _ hi, BitVec.getLsbD_append, BitVec.getLsbD_shiftLeft]
  interval_cases i <;> simp

/-- A value of five bits at bit 8, as Random stands in its register (R37). -/
theorem placed_eight_eq_append (r : BitVec 5) : placed r 8 = 0#19 ++ r ++ 0#8 := by
  revert r
  decide

/-- Random is at least 8 (R37, D6). -/
theorem State.eight_le_random (s : State) : 8 ≤ s.random.toNat := by
  unfold State.random
  split
  · decide
  · rw [BitVec.toNat_ofNat]
    omega

theorem State.random_fresh {s : State} (h : s.fresh = true) : s.random = 31 := if_pos h

/-- Settles O41: without hazards each register reads as it is. -/
theorem mfc0Values : Obligations.Mfc0Values := by
  intro s rt hu hn
  have hread {rd : Reg} {v w : Word} (hr : s.cp0Read rd = some v) (hv : v = w) : WritesOnly (.mfc0 rt rd) s rt w := hv ▸ .mfc0 hu rt hr
  have hstatus : s.seenStatus tagReadStatus 0xFFFFFFFF = s.cp0.status := (hn.seenStatus _ _).trans BitVec.and_allOnes
  exact ⟨hread rfl (hn.seenIndex _), hread rfl (hn.seenEntryLo _), hread rfl rfl, hread rfl rfl, hread rfl (hn.seenEntryHi ..),
    hread rfl hstatus, hread rfl s.causeWord_eq_append, hread rfl rfl, hread rfl rfl,
    s.random, s.eight_le_random, State.random_fresh, hread rfl (placed_eight_eq_append _)⟩

/-! ## The TLB instructions (R322 to R325) -/

/-- A write of one TLB entry that completes changes that entry alone. -/
theorem ChangesTlb.of_retire {i : Instr} {s : State} {k : BitVec 5} {e : TlbEntry} {x : Trace}
    (h : exec i s = .next (State.retire { s with tlb := s.tlb.set k.toNat e k.isLt } x)) : ChangesTlb i s k e := by
  refine ⟨_, h, fun j => ?_, fun r => State.retire_reg _ x r, ⟨rfl, rfl⟩, ⟨rfl, rfl, rfl, fun _ => rfl, rfl, rfl, rfl, rfl, rfl⟩,
    ⟨rfl, rfl, rfl, rfl⟩⟩
  rw [State.retire_tlb]
  by_cases hj : j = k
  · subst hj
    rw [if_pos rfl]
    exact Vector.getElem_set_self _
  · rw [if_neg hj]
    exact Vector.getElem_set_ne k.isLt _ fun h => hj (BitVec.eq_of_toNat_eq h.symm)

/-- A TLB write without hazards takes the fields of EntryHi and EntryLo (R324, R325). -/
theorem NoHazards.writeTlb {s : State} (h : NoHazards s) (k : BitVec 5) :
    s.writeTlb k = State.retire { s with tlb := s.tlb.set k.toNat (tlbEntryOf s.cp0.entryHi s.cp0.entryLo) k.isLt }
      (.cp0 (.tlb k (s.tlb[k.toNat]'k.isLt))) := by
  rw [State.writeTlb, h.seenEntryHi, h.seenEntryLo]

/-- Settles O43: Index names the entry of `tlbwi`, Random that of `tlbwr`. -/
theorem tlbWrites : Obligations.TlbWrites := by
  intro s hu hn hi lo e
  have hrandom : exec .tlbwr s = .next (s.writeTlb s.random) := State.withCop0_usable hu
  rw [hn.writeTlb] at hrandom
  exact ⟨.of_retire (exec_tlbwi hu hn), s.random, s.eight_le_random, .of_retire hrandom⟩

/-- Settles O44: without hazards `tlbr` sees the entry that Index names, and its two words hold its fields. -/
theorem tlbReads : Obligations.TlbReads := by
  intro s hu hn e
  have h : exec .tlbr s = .next (State.retire { s with cp0 := { s.cp0 with entryHi := e.hi, entryLo := e.lo } }
      (.cp0 (.tlbRead s.cp0.entryHi s.cp0.entryLo))) := by
    refine (State.withCop0_usable hu).trans ?_
    simp only [hn.seenIndex, hn.seenTlb]
    rfl
  rw [TlbEntry.lo_eq_append] at h
  exact .of_retire h

/-- Nothing is picked only where nothing matches. -/
theorem State.pickHit_eq_none {s : State} {tag : Nat} {is : List (BitVec 5)} (h : s.pickHit tag is = none) : is = [] := by
  match is with
  | [] => rfl
  | [i] | i :: j :: is => cases h

/-- What is picked is one of the matching entries (R113). -/
theorem State.pickHit_mem {s : State} {tag : Nat} {is : List (BitVec 5)} {k : BitVec 5} (h : s.pickHit tag is = some k) : k ∈ is := by
  match is with
  | [i] => cases h; exact List.mem_cons_self
  | i :: j :: is =>
    cases h
    have hlt : (s.free tag).toNat % ((j :: is).length + 1) < (i :: j :: is).length := Nat.mod_lt _ (Nat.succ_pos _)
    rw [List.getD_eq_getElem _ _ hlt]
    exact List.getElem_mem hlt

/-- The two forms of Index after a probe: P in bit 31, the number in bits 12:8 (R36). -/
theorem probe_fields : ∀ k : BitVec 5, (placed k 8).getLsbD 31 = false ∧ (placed k 8).extractLsb' 8 5 = k ∧
    (0x80000000 ||| placed k 8).getLsbD 31 = true := by decide

/-- Settles O45: P says whether a matching entry was picked, and then the number is its. -/
theorem tlbProbes : Obligations.TlbProbes := by
  intro s hu hn hit
  have hmem : ∀ k, k ∈ tlbHits s.tlb (s.cp0.entryHi.extractLsb' 12 20) (s.cp0.entryHi.extractLsb' 6 6) ↔ hit k := fun k => mem_tlbHits
  refine ⟨s.probe, .of_retire (State.withCop0_usable hu), s.probe_reserved, ?_⟩
  simp only [State.probe, hn.seenEntryHi, hn.seenTlb]
  split
  case h_1 k hk =>
    obtain ⟨hp, hindex, -⟩ := probe_fields k
    rw [hp, if_neg Bool.false_ne_true, hindex]
    exact (hmem k).mp (State.pickHit_mem hk)
  case h_2 hk =>
    obtain ⟨-, -, hp⟩ := probe_fields ((s.free tagProbe).extractLsb' 0 5)
    rw [hp, if_pos rfl]
    intro k hhit
    have hnone := (hmem k).mpr hhit
    rw [State.pickHit_eq_none hk] at hnone
    exact absurd hnone List.not_mem_nil

end Sys2Proof.Machine
end

section
/-!
SUPPORT and PROOFS. Arithmetic, comparisons and shifts: the results of the plain instructions, the trap of the signed ones (O8 to O11).
-/

namespace Sys2Proof.Machine

/-! ## What the operations on words compute (R284, R340, R349, R350) -/

/-- The signed comparison as a register value. -/
theorem boolWord_lessSigned (a b : Word) : boolWord (lessSigned a b) = if a.toInt < b.toInt then 1 else 0 := by
  simp only [boolWord, lessSigned, decide_eq_true_eq]

/-- The unsigned comparison as a register value. -/
theorem boolWord_lessUnsigned (a b : Word) : boolWord (lessUnsigned a b) = if a.toNat < b.toNat then 1 else 0 := by
  simp only [boolWord, lessUnsigned, decide_eq_true_eq]

/-- Sign extension keeps the signed value of an immediate. -/
theorem toInt_sext (imm : BitVec 16) : (sext imm).toInt = imm.toInt := BitVec.toInt_signExtend_of_le (by decide)

/-- Zero extension keeps the unsigned value of an immediate. -/
theorem zext_eq_ofNat (imm : BitVec 16) : zext imm = BitVec.ofNat 32 imm.toNat :=
  BitVec.eq_of_toNat_eq (by rw [zext, BitVec.toNat_setWidth, BitVec.toNat_ofNat])

/-- An immediate in the upper half of a word (R358). -/
theorem append_zero_eq_ofNat (imm : BitVec 16) : imm ++ 0#16 = BitVec.ofNat 32 (imm.toNat * 65536) := by
  apply BitVec.eq_of_toNat_eq
  have hlt : imm.toNat * 65536 < 2 ^ 32 := by omega
  rw [BitVec.toNat_append, BitVec.toNat_ofNat, BitVec.toNat_ofNat, Nat.mod_eq_of_lt hlt, Nat.zero_mod, Nat.or_zero, Nat.shiftLeft_eq]

/-- The test on the sign bits is the library's predicate, which compares the exact sum with the bounds. -/
theorem addOverflow_eq_saddOverflow (a b : Word) : addOverflow a b = a.saddOverflow b := by
  simp only [BitVec.saddOverflow_eq, BitVec.msb_eq_getLsbD_last]
  rfl

/-- The test on the sign bits of a subtraction, likewise on the exact difference. -/
theorem subOverflow_eq_ssubOverflow (a b : Word) : subOverflow a b = a.ssubOverflow b := by
  simp only [BitVec.ssubOverflow_eq, BitVec.msb_eq_getLsbD_last, subOverflow]
  cases a.getLsbD 31 <;> cases b.getLsbD 31 <;> simp

/-- A sum does not overflow exactly when it fits 32 bits signed (R341). -/
theorem addOverflow_eq_false_iff (a b : Word) :
    addOverflow a b = false ↔ -2 ^ 31 ≤ a.toInt + b.toInt ∧ a.toInt + b.toInt < 2 ^ 31 := by
  simp only [addOverflow_eq_saddOverflow, BitVec.saddOverflow, Bool.or_eq_false_iff, decide_eq_false_iff_not]
  omega

/-- A difference does not overflow exactly when it fits 32 bits signed (R343). -/
theorem subOverflow_eq_false_iff (a b : Word) :
    subOverflow a b = false ↔ -2 ^ 31 ≤ a.toInt - b.toInt ∧ a.toInt - b.toInt < 2 ^ 31 := by
  simp only [subOverflow_eq_ssubOverflow, BitVec.ssubOverflow, Bool.or_eq_false_iff, decide_eq_false_iff_not]
  omega

/-- The sum of two words is their exact sum modulo 2^32. -/
theorem add_eq_ofInt (a b : Word) : a + b = BitVec.ofInt 32 (a.toInt + b.toInt) := by
  rw [BitVec.ofInt_add, BitVec.ofInt_toInt, BitVec.ofInt_toInt]

/-- The difference of two words is their exact difference modulo 2^32. -/
theorem sub_eq_ofInt (a b : Word) : a - b = BitVec.ofInt 32 (a.toInt - b.toInt) := by
  apply BitVec.eq_of_toInt_eq
  rw [BitVec.toInt_sub, BitVec.toInt_ofInt]

/-- A left shift multiplies, modulo 2^32 (R360). -/
theorem shiftLeft_eq_ofNat (y : Word) (k : Nat) : y <<< k = BitVec.ofNat 32 (y.toNat * 2 ^ k) := by
  apply BitVec.eq_of_toNat_eq
  rw [BitVec.toNat_shiftLeft, BitVec.toNat_ofNat, Nat.shiftLeft_eq]

/-- A logical right shift is the unsigned quotient (R361). -/
theorem ushiftRight_eq_ofNat (y : Word) (k : Nat) : y >>> k = BitVec.ofNat 32 (y.toNat / 2 ^ k) := by
  apply BitVec.eq_of_toNat_eq
  have hlt : y.toNat / 2 ^ k < 2 ^ 32 := Nat.lt_of_le_of_lt (Nat.div_le_self _ _) y.isLt
  rw [BitVec.toNat_ushiftRight, BitVec.toNat_ofNat, Nat.shiftRight_eq_div_pow, Nat.mod_eq_of_lt hlt]

/-- An arithmetic right shift is the signed quotient rounded down (R362). -/
theorem sshiftRight_eq_ofInt (y : Word) (k : Nat) : y.sshiftRight k = BitVec.ofInt 32 (y.toInt / 2 ^ k) := by
  rw [BitVec.sshiftRight, Int.shiftRight_eq_div_pow, Int.natCast_pow, Nat.cast_ofNat]

/-! ## The instructions that do not trap -/

/-- Settles O8: each instruction answers `alu` with its result. -/
theorem registerResults : Obligations.RegisterResults := by
  intro s rs rt rd x y
  exact ⟨.of_alu rfl rfl, .of_alu rfl rfl, .of_alu rfl rfl, .of_alu rfl rfl, .of_alu rfl rfl, .of_alu rfl rfl,
    .of_alu rfl (boolWord_lessSigned x y), .of_alu rfl (boolWord_lessUnsigned x y)⟩

/-- Settles O9: as O8, with the immediate extended by its sign for arithmetic and comparisons, by zeros for logic. -/
theorem immediateResults : Obligations.ImmediateResults := by
  intro s rs rt imm x y z
  have hz : zext imm = z := zext_eq_ofNat imm
  have hslti : boolWord (lessSigned x (sext imm)) = if x.toInt < imm.toInt then 1 else 0 := by
    rw [boolWord_lessSigned, toInt_sext]
  exact ⟨.of_alu rfl rfl, .of_alu rfl hslti, .of_alu rfl (boolWord_lessUnsigned x y), .of_alu rfl (congrArg (x &&& ·) hz),
    .of_alu rfl (congrArg (x ||| ·) hz), .of_alu rfl (congrArg (x ^^^ ·) hz), .of_alu rfl (append_zero_eq_ofNat imm)⟩

/-- Settles O11: each shift is its multiplication or division at every count, so that only the count differs between the fixed and the
variable form. -/
theorem shiftResults : Obligations.ShiftResults := by
  intro s rs rt rd shamt y n left right arith
  have hleft (k : Nat) : y <<< k = left k := shiftLeft_eq_ofNat y k
  have hright (k : Nat) : y >>> k = right k := ushiftRight_eq_ofNat y k
  have harith (k : Nat) : y.sshiftRight k = arith k := sshiftRight_eq_ofInt y k
  exact ⟨.of_alu rfl (hleft _), .of_alu rfl (hright _), .of_alu rfl (harith _), .of_alu rfl (hleft n), .of_alu rfl (hright n),
    .of_alu rfl (harith n)⟩

/-! ## The instructions that trap (R340) -/

/-- An instruction that answers `aluTrap` writes its result where that does not overflow, and raises Overflow where it does. -/
theorem exec_of_aluTrap {i : Instr} {s : State} {rd : Reg} {overflow : Bool} {v w : Word} {fits : Prop}
    (h : exec i s = s.aluTrap rd overflow w) (ho : overflow = false ↔ fits) (hv : w = v) :
    (fits → WritesOnly i s rd v) ∧ (¬ fits → exec i s = .next (s.raise .ov)) := by
  constructor
  · intro hfits
    rw [ho.mpr hfits] at h
    exact .of_alu h hv
  · intro hfits
    rw [Bool.eq_true_of_not_eq_false (mt ho.mp hfits)] at h
    exact h

/-- Settles O10: the test on the sign bits traps exactly where the exact result is outside 32 bits signed; `addi` takes its immediate at its
signed value. -/
theorem overflowTraps : Obligations.OverflowTraps := by
  intro s rs rt rd imm fits arith
  refine ⟨exec_of_aluTrap rfl (addOverflow_eq_false_iff _ _) (add_eq_ofInt _ _),
    exec_of_aluTrap rfl (subOverflow_eq_false_iff _ _) (sub_eq_ofInt _ _), ?_⟩
  rw [← toInt_sext imm]
  exact exec_of_aluTrap rfl (addOverflow_eq_false_iff _ _) (add_eq_ofInt _ _)

end Sys2Proof.Machine
end

section
/-!
SUPPORT and PROOFS. Multiply, divide and the moves of HI and LO outside the window of R1081 (O12 to O14).
-/

namespace Sys2Proof.Machine

/-! ## What the multiplications compute (R380, R390, R391) -/

/-- The product of two signed words fits 64 bits, so the signed product is exact. -/
theorem toInt_mulSigned (a b : Word) : (mulSigned a b).toInt = a.toInt * b.toInt := by
  have hlow : -2 ^ 62 ≤ signed a * signed b := BitVec.le_toInt_mul_toInt
  have hhigh : signed a * signed b ≤ 2 ^ 62 := BitVec.toInt_mul_toInt_le
  exact BitVec.toInt_ofInt_eq_self (by decide) (by omega) (by omega)

/-- The product of two unsigned words fits 64 bits, so the unsigned product is exact. -/
theorem toNat_mulUnsigned (a b : Word) : (mulUnsigned a b).toNat = a.toNat * b.toNat := by
  have hlt : unsigned a * unsigned b < 2 ^ 32 * 2 ^ 32 := Nat.mul_lt_mul'' a.isLt b.isLt
  rw [mulUnsigned, BitVec.toNat_ofNat]
  exact Nat.mod_eq_of_lt hlt

/-- Adding a signed product is exact modulo 2^64 (R390). -/
theorem add_mulSigned (acc : BitVec 64) (a b : Word) : acc + mulSigned a b = BitVec.ofInt 64 (acc.toInt + a.toInt * b.toInt) := by
  rw [BitVec.ofInt_add, BitVec.ofInt_toInt]
  rfl

/-- Adding an unsigned product is exact modulo 2^64 (R391). -/
theorem add_mulUnsigned (acc : BitVec 64) (a b : Word) :
    acc + mulUnsigned a b = BitVec.ofNat 64 (acc.toNat + a.toNat * b.toNat) := by
  rw [BitVec.ofNat_add, BitVec.ofNat_toNat, BitVec.setWidth_eq]
  rfl

/-! ## What the divisions compute (R385, R386) -/

/-- The signed quotient is the library's. -/
theorem divSigned_eq_sdiv (a b : Word) : divSigned a b = a.sdiv b := by
  apply BitVec.eq_of_toInt_eq
  rw [divSigned, BitVec.toInt_ofInt, BitVec.toInt_sdiv]

/-- The signed quotient is exact but for -2^31 by -1, the one quotient that does not fit. -/
theorem toInt_divSigned {a b : Word} (h : ¬ (a.toInt = -2 ^ 31 ∧ b.toInt = -1)) :
    (divSigned a b).toInt = a.toInt.tdiv b.toInt := by
  rw [divSigned_eq_sdiv, BitVec.toInt_sdiv_of_ne_or_ne]
  refine (not_and_or.mp h).imp (fun ha => ?_) (fun hb => ?_)
  · rintro rfl
    exact ha (by decide)
  · rintro rfl
    exact hb (by decide)

/-- The signed remainder is exact: it is the library's, which always fits. -/
theorem toInt_remSigned (a b : Word) : (remSigned a b).toInt = a.toInt.tmod b.toInt := by
  rw [remSigned, ← BitVec.toInt_srem, BitVec.ofInt_toInt]

/-- -2^31 by -1 gives 0x80000000 and 0 (U-DIVOVF). -/
theorem divSigned_remSigned_corner {a b : Word} (h : a.toInt = -2 ^ 31 ∧ b.toInt = -1) :
    divSigned a b = 0x80000000 ∧ remSigned a b = 0 := by
  simp only [divSigned, remSigned, signed, h]
  decide

/-- The unsigned quotient is exact. -/
theorem toNat_divUnsigned (a b : Word) : (divUnsigned a b).toNat = a.toNat / b.toNat := by
  rw [divUnsigned, BitVec.toNat_ofNat, Nat.mod_eq_of_lt (Nat.lt_of_le_of_lt (Nat.div_le_self _ _) a.isLt)]

/-- The unsigned remainder is exact. -/
theorem toNat_remUnsigned (a b : Word) : (remUnsigned a b).toNat = a.toNat % b.toNat := by
  rw [remUnsigned, BitVec.toNat_ofNat, Nat.mod_eq_of_lt (Nat.lt_of_le_of_lt (Nat.mod_le _ _) a.isLt)]

/-! ## Instructions that write HI and LO -/

/-- Writing HI and LO and completing: the frame. -/
theorem State.setHiLo_retire_keeps (s : State) (hi lo : Word) (t : Trace) :
    KeepsRegs s (State.retire { s with hi, lo } t) ∧ Keeps s (State.retire { s with hi, lo } t) ∧
      Advances s (State.retire { s with hi, lo } t) :=
  ⟨fun r => State.retire_reg _ t r, ⟨rfl, rfl, rfl, fun _ => rfl, rfl, rfl, rfl, rfl, rfl⟩, ⟨rfl, rfl, rfl, rfl⟩⟩

/-- Writing HI : LO and its low word to `rd`, and completing: what is written and the frame. -/
theorem State.setAcc_setReg_retire_frame (s : State) (rd : Reg) (v : BitVec 64) (t : Trace) :
    let u := ((s.setAcc v).setReg rd (v.extractLsb' 0 32)).retire t
    u.acc = v ∧ WritesReg s u rd u.lo ∧ Keeps s u ∧ Advances s u :=
  ⟨s.setAcc_acc v, fun r => by rw [State.retire_reg, State.setReg_reg, State.setAcc_reg]; rfl,
    ⟨rfl, rfl, rfl, fun _ => rfl, rfl, rfl, rfl, rfl, rfl⟩, ⟨rfl, rfl, rfl, rfl⟩⟩

/-- In a settled state an instruction that answers `writeAcc` completes with its value in HI : LO and the low word in `rd`. -/
theorem exec_of_writeAcc {i : Instr} {s : State} {rd : Reg} {v : BitVec 64} {p : BitVec 64 → Prop} (hs : HiLoSettled s)
    (h : exec i s = s.writeAcc rd v) (hp : p v) :
    ∃ t, exec i s = .next t ∧ p t.acc ∧ WritesReg s t rd t.lo ∧ Keeps s t ∧ Advances s t := by
  obtain ⟨hacc, hframe⟩ := s.setAcc_setReg_retire_frame rd v .plain
  exact ⟨_, h.trans (State.writeHiLo_settled hs _), hacc.symm ▸ hp, hframe⟩

/-- In a settled state an instruction that answers `writeDiv` completes; LO and HI are its quotient and remainder where the divisor is
not zero. -/
theorem exec_of_writeDiv {i : Instr} {s : State} {y q r : Word} {p : Word → Word → Prop} (hs : HiLoSettled s)
    (h : exec i s = s.writeDiv (y = 0) q r) (hp : p q r) :
    ∃ t, exec i s = .next t ∧ (y ≠ 0 → p t.lo t.hi) ∧ KeepsRegs s t ∧ Keeps s t ∧ Advances s t := by
  refine ⟨_, h.trans (State.writeHiLo_settled hs _), fun hy => ?_, s.setHiLo_retire_keeps _ _ .plain⟩
  simpa only [State.retire_lo, State.retire_hi, decide_eq_true_eq, if_neg hy] using hp

/-! ## The instructions outside the window of R1081 -/

/-- Settles O12: each instruction answers `writeAcc` with its value, and the products are exact. -/
theorem multiplyResults : Obligations.MultiplyResults := by
  intro s rs rt rd hs x y result
  have result_of {i : Instr} {v : BitVec 64} {p : BitVec 64 → Prop} (h : exec i s = s.writeAcc rd v) (hp : p v) : result i p :=
    exec_of_writeAcc hs h hp
  clear_value result
  exact ⟨result_of rfl (toInt_mulSigned x y), result_of rfl (toNat_mulUnsigned x y), result_of rfl (add_mulSigned s.acc x y),
    result_of rfl (add_mulUnsigned s.acc x y)⟩

/-- Settles O13: each instruction answers `writeDiv` with its quotient and remainder; the signed quotient has its one corner. -/
theorem divideResults : Obligations.DivideResults := by
  intro s rs rt hs x y result
  have result_of {i : Instr} {q r : Word} {p : Word → Word → Prop} (h : exec i s = s.writeDiv (y = 0) q r) (hp : p q r) :
      result i p := exec_of_writeDiv hs h hp
  clear_value result
  refine ⟨result_of rfl ?div, result_of rfl ⟨toNat_divUnsigned x y, toNat_remUnsigned x y⟩⟩
  split
  case isTrue hcorner => exact divSigned_remSigned_corner hcorner
  case isFalse hcorner => exact ⟨toInt_divSigned hcorner, toInt_remSigned x y⟩

/-- Settles O14: a move from HI or LO writes one register and completes in every state; a move to one of them keeps the other. -/
theorem hiLoMoves : Obligations.HiLoMoves := by
  refine ⟨fun s rd => ⟨?mfhi, ?mflo⟩, fun s rs hs => ⟨?mthi, ?mtlo⟩⟩
  case mfhi => exact ⟨_, rfl, s.setReg_retire_frame rd s.hi (hiLoTrace rd)⟩
  case mflo => exact ⟨_, rfl, s.setReg_retire_frame rd s.lo (hiLoTrace rd)⟩
  case mthi => exact ⟨_, State.writeHiLo_settled hs _, rfl, rfl, s.setHiLo_retire_keeps (s.opReg rs) s.lo .plain⟩
  case mtlo => exact ⟨_, State.writeHiLo_settled hs _, rfl, rfl, s.setHiLo_retire_keeps s.hi (s.opReg rs) .plain⟩

end Sys2Proof.Machine
end

section
/-!
SUPPORT and PROOFS. Jumps and branches: where they go, what they write, where they stop (O16 to O20).
-/

namespace Sys2Proof.Machine

/-! ## The conditions (R408 to R411) -/

/-- Bit 31 is the sign. -/
theorem negative_iff (a : Word) : negative a = true ↔ a.toInt < 0 := by
  have h : negative a = a.msb := (BitVec.msb_eq_getLsbD_last a).symm
  rw [h, BitVec.msb_eq_toInt, decide_eq_true_eq]

theorem not_negative_iff (a : Word) : (!negative a) = true ↔ 0 ≤ a.toInt := by
  rw [Bool.not_eq_true', ← Bool.not_eq_true, negative_iff, not_lt]

theorem eq_zero_iff_toInt (a : Word) : a = 0 ↔ a.toInt = 0 := BitVec.toInt_inj.symm

theorem negative_or_zero_iff (a : Word) : (negative a || a == 0) = true ↔ a.toInt ≤ 0 := by
  rw [Bool.or_eq_true, negative_iff, beq_iff_eq, eq_zero_iff_toInt, le_iff_lt_or_eq]

theorem positive_iff (a : Word) : (!negative a && a != 0) = true ↔ 0 < a.toInt := by
  rw [Bool.and_eq_true, not_negative_iff, bne_iff_ne, ne_eq, eq_zero_iff_toInt, lt_iff_le_and_ne, ne_comm]

/-! ## The targets (R400, R402) -/

/-- The offset counts words. -/
theorem sext_shiftLeft_two (imm : BitVec 16) : sext imm <<< 2 = BitVec.ofInt 32 (4 * imm.toInt) := by
  rw [BitVec.shiftLeft_eq_mul_twoPow, BitVec.ofInt_mul, BitVec.mul_comm]
  rfl

/-- The target of a branch, as the statements write it. -/
theorem State.branchTarget_eq (s : State) (imm : BitVec 16) :
    s.branchTarget imm = s.pc + 4 + BitVec.ofInt 32 (4 * imm.toInt) :=
  congrArg (s.pc + 4 + ·) (sext_shiftLeft_two imm)

/-- The target field of a jump as an offset in its region. -/
theorem jumpOffset_eq (target : BitVec 26) : BitVec.ofNat 32 (4 * target.toNat) = 0#4 ++ target ++ 0#2 := by
  apply BitVec.eq_of_toNat_eq
  have hlt : 4 * target.toNat < 2 ^ 32 := by omega
  rw [BitVec.toNat_ofNat, Nat.mod_eq_of_lt hlt, BitVec.toNat_append, BitVec.toNat_append]
  simp only [BitVec.toNat_ofNat, Nat.zero_mod, Nat.shiftLeft_eq, Nat.zero_mul, Nat.zero_or, Nat.or_zero]
  omega

/-- The region is the upper four bits of the address of the delay slot. -/
theorem region_eq (a : Word) : a &&& 0xF0000000 = a.extractLsb' 28 4 ++ 0#26 ++ 0#2 := by
  apply BitVec.eq_of_getLsbD_eq
  intro i hi
  simp only [BitVec.getLsbD_append, BitVec.getLsbD_and, BitVec.getLsbD_extractLsb']
  interval_cases i <;> simp

/-- Region and offset have no bit in common, so that their sum is the one beside the other. -/
theorem region_append (a : Word) (target : BitVec 26) :
    a.extractLsb' 28 4 ++ target ++ 0#2 = (a &&& 0xF0000000) + BitVec.ofNat 32 (4 * target.toNat) := by
  rw [jumpOffset_eq, region_eq, BitVec.add_eq_or_of_and_eq_zero]
  · simp only [BitVec.or_append, BitVec.or_zero, BitVec.zero_or]
  · simp only [BitVec.and_append, BitVec.and_zero, BitVec.zero_and, BitVec.zero_append_zero]

theorem State.jumpTarget_eq (s : State) (target : BitVec 26) :
    s.jumpTarget target = ((s.pc + 4) &&& 0xF0000000) + BitVec.ofNat 32 (4 * target.toNat) := region_append (s.pc + 4) target

/-! ## Transfers of control outside a delay slot (R400, R414) -/

/-- A write of `rd` is all that becomes of the registers when what follows it leaves them alone. -/
theorem WritesReg.of_keepsRegs {s t : State} {rd : Reg} {v : Word} (h : KeepsRegs (s.setReg rd v) t) : WritesReg s t rd v :=
  fun r => (h r).trans (s.setReg_writes rd v r)

/-- Nothing but the general registers changes when one is written. -/
theorem Keeps.of_setReg {s t : State} {rd : Reg} {v : Word} (h : Keeps (s.setReg rd v) t) : Keeps s t :=
  ⟨h.cp0, h.tlb, h.wb, h.mem, h.icache, h.dcache, h.dev, h.board, h.agenda⟩

section
variable {i : Instr} {s : State}

theorem Transfers.of_jumpTo {target : Word} (h : exec i s = .next (s.jumpTo target)) : Transfers i s target :=
  ⟨_, h, s.jumpTo_keeps target⟩

theorem Transfers.of_fallThrough (h : exec i s = .next s.fallThrough) : Transfers i s (s.npc + 4) :=
  ⟨_, h, s.fallThrough_keeps⟩

theorem Skips.of_nullify (h : exec i s = .next s.nullify) : Skips i s := ⟨_, h, s.nullify_keeps⟩

variable {rd : Reg} {v : Word}

theorem TransfersLinking.of_jumpTo {target : Word} (h : exec i s = .next ((s.setReg rd v).jumpTo target)) :
    TransfersLinking i s rd v target :=
  have ⟨hregs, hacc, hkeeps, hdelays⟩ := (s.setReg rd v).jumpTo_keeps target
  ⟨_, h, .of_keepsRegs hregs, hacc, hkeeps.of_setReg, hdelays⟩

theorem TransfersLinking.of_fallThrough (h : exec i s = .next (s.setReg rd v).fallThrough) :
    TransfersLinking i s rd v (s.npc + 4) :=
  have ⟨hregs, hacc, hkeeps, hdelays⟩ := (s.setReg rd v).fallThrough_keeps
  ⟨_, h, .of_keepsRegs hregs, hacc, hkeeps.of_setReg, hdelays⟩

theorem SkipsLinking.of_nullify (h : exec i s = .next (s.setReg rd v).nullify) : SkipsLinking i s rd v :=
  have ⟨hregs, hacc, hkeeps, hnullifies⟩ := (s.setReg rd v).nullify_keeps
  ⟨_, h, .of_keepsRegs hregs, hacc, hkeeps.of_setReg, hnullifies⟩

/-- An instruction that transfers to one of two states by its condition. -/
theorem exec_of_transfer_cond (hs : s.ds = false) {taken : Bool} {k m : State} {c : Prop}
    (h : exec i s = s.transfer (if taken then k else m)) (hc : taken = true ↔ c) :
    (c → exec i s = .next k) ∧ (¬ c → exec i s = .next m) := by
  rw [State.transfer_free hs] at h
  exact ⟨fun hcond => h.trans (by rw [if_pos (hc.mpr hcond)]), fun hcond => h.trans (by rw [if_neg (mt hc.mp hcond)])⟩

variable {rs : Reg} {imm : BitVec 16} {taken : Bool} {c : Prop}

theorem exec_of_branch (hs : s.ds = false) (h : exec i s = s.branch taken imm) (hc : taken = true ↔ c) :
    (c → Transfers i s (s.pc + 4 + BitVec.ofInt 32 (4 * imm.toInt))) ∧ (¬ c → Transfers i s (s.npc + 4)) := by
  rw [← s.branchTarget_eq imm]
  exact (exec_of_transfer_cond hs h hc).imp (.of_jumpTo <| · ·) (.of_fallThrough <| · ·)

theorem exec_of_branchLikely (hs : s.ds = false) (h : exec i s = s.branchLikely taken imm) (hc : taken = true ↔ c) :
    (c → Transfers i s (s.pc + 4 + BitVec.ofInt 32 (4 * imm.toInt))) ∧ (¬ c → Skips i s) := by
  rw [← s.branchTarget_eq imm]
  exact (exec_of_transfer_cond hs h hc).imp (.of_jumpTo <| · ·) (.of_nullify <| · ·)

theorem exec_of_branchLink (hs : s.ds = false) (hrs : rs ≠ 31) (h : exec i s = s.branchLink rs taken imm) (hc : taken = true ↔ c) :
    (c → TransfersLinking i s 31 (s.pc + 8) (s.pc + 4 + BitVec.ofInt 32 (4 * imm.toInt))) ∧
      (¬ c → TransfersLinking i s 31 (s.pc + 8) (s.npc + 4)) := by
  rw [← s.branchTarget_eq imm]
  exact (exec_of_transfer_cond hs (h.trans (if_neg hrs)) hc).imp (.of_jumpTo <| · ·) (.of_fallThrough <| · ·)

theorem exec_of_branchLinkLikely (hs : s.ds = false) (hrs : rs ≠ 31) (h : exec i s = s.branchLinkLikely rs taken imm)
    (hc : taken = true ↔ c) :
    (c → TransfersLinking i s 31 (s.pc + 8) (s.pc + 4 + BitVec.ofInt 32 (4 * imm.toInt))) ∧
      (¬ c → SkipsLinking i s 31 (s.pc + 8)) := by
  rw [← s.branchTarget_eq imm]
  exact (exec_of_transfer_cond hs (h.trans (if_neg hrs)) hc).imp (.of_jumpTo <| · ·) (.of_nullify <| · ·)

end

/-! ## Jumps and branches that complete -/

/-- Settles O16: each jump is a transfer to its target, behind the write of its link register. -/
theorem jumps : Obligations.Jumps := by
  intro s rs rd target hs region
  have hregion : s.jumpTarget target = region := s.jumpTarget_eq target
  rw [← hregion]
  refine ⟨.of_jumpTo (State.transfer_free hs _), .of_jumpTo (State.transfer_free hs _), .of_jumpTo (State.transfer_free hs _), ?_⟩
  split
  case isTrue hsame => exact if_pos hsame
  case isFalse hne => exact .of_jumpTo ((if_neg hne).trans (State.transfer_free hs _))

/-- Settles O17: the six branches are one operation with six conditions. -/
theorem branches : Obligations.Branches := by
  intro s rs rt imm hs x goes
  have goes_of {i : Instr} {taken : Bool} {c : Prop} (h : exec i s = s.branch taken imm) (hc : taken = true ↔ c) : goes i c :=
    exec_of_branch hs h hc
  clear_value goes
  exact ⟨goes_of rfl beq_iff_eq, goes_of rfl bne_iff_ne, goes_of rfl (negative_or_zero_iff x), goes_of rfl (positive_iff x),
    goes_of rfl (negative_iff x), goes_of rfl (not_negative_iff x)⟩

/-- Settles O18: as O17, with the delay slot nullified where the condition fails. -/
theorem likelyBranches : Obligations.LikelyBranches := by
  intro s rs rt imm hs x goes
  have goes_of {i : Instr} {taken : Bool} {c : Prop} (h : exec i s = s.branchLikely taken imm) (hc : taken = true ↔ c) : goes i c :=
    exec_of_branchLikely hs h hc
  clear_value goes
  exact ⟨goes_of rfl beq_iff_eq, goes_of rfl bne_iff_ne, goes_of rfl (negative_or_zero_iff x), goes_of rfl (positive_iff x),
    goes_of rfl (negative_iff x), goes_of rfl (not_negative_iff x)⟩

/-! ## Where they stop (R401, R405, R412, R413, R1201, R1202) -/

/-- A linking branch on the link register stops, delay slot or not. -/
theorem linking_on_link_stops (s : State) (imm : BitVec 16) :
    ∀ i ∈ [Instr.bltzal 31 imm, .bgezal 31 imm, .bltzall 31 imm, .bgezall 31 imm], exec i s = .refused .linkOnLinkRegister := by
  simp only [List.forall_mem_cons, List.not_mem_nil, false_imp_iff, implies_true, and_true]
  exact ⟨rfl, rfl, rfl, rfl⟩

/-- Settles O19: on register 31 the four stop; elsewhere each is a branch behind the write of the link register, on a condition that was read
before it. -/
theorem linkingBranches : Obligations.LinkingBranches := by
  intro s rs imm hs
  split
  case isTrue hlink =>
    subst hlink
    exact linking_on_link_stops s imm
  case isFalse hrs =>
    have hlt := negative_iff (s.opReg rs)
    have hge := not_negative_iff (s.opReg rs)
    exact ⟨exec_of_branchLink hs hrs rfl hlt, exec_of_branchLink hs hrs rfl hge, exec_of_branchLinkLikely hs hrs rfl hlt,
      exec_of_branchLinkLikely hs hrs rfl hge⟩

/-- Settles O20: in a delay slot every transfer is refused; the checks of the registers come before that. -/
theorem branchStops : Obligations.BranchStops := by
  refine ⟨fun s rs rt rd imm target hs => ?slot, fun s rs => if_pos rfl, linking_on_link_stops⟩
  have refused {k : State} : s.transfer k = .refused .branchInDelaySlot := State.transfer_slot hs k
  simp only [List.forall_mem_cons, List.not_mem_nil, false_imp_iff, implies_true, and_true]
  refine ⟨?_, fun hne => (if_neg hne).trans refused, fun hrs => ?_⟩
  · exact ⟨refused, refused, refused, refused, refused, refused, refused, refused, refused, refused, refused, refused, refused, refused,
      refused⟩
  · have behind {k : State} {r : Refusal} : (if rs = 31 then .refused r else s.transfer k) = .refused .branchInDelaySlot :=
      (if_neg hrs).trans refused
    exact ⟨behind, behind, behind, behind⟩

end Sys2Proof.Machine
end

section
/-!
SUPPORT and PROOFS. A step of the core is the instruction that its word decodes to (O5).
-/

namespace Sys2Proof.Machine

/-! ## The word of the step (R400, R463) -/

theorem State.execWord_instr {s : State} {w : Word} {i : Instr} (h : decode w = .instr i) :
    s.execWord w = exec i (State.noteUse { s with pending := .exec w } i) := by
  simp only [State.execWord, h]

theorem State.fetchExec_inProgress {s : State} {w : Word} (h : s.pending = .exec w) : s.fetchExec = s.checkWrap (s.execWord w) := by
  simp only [State.fetchExec, h]

theorem State.fetchExec_fetched {s t : State} {w : Word} (hp : ∀ w, s.pending ≠ .exec w) (h : s.fetch = .ok w t) :
    s.fetchExec = s.checkWrap (t.execWord w) := by
  unfold State.fetchExec
  split
  case h_1 w hw => exact absurd hw (hp w)
  case h_2 => rw [h]

/-- In the middle of an instruction the step goes on with it, before any NMI or interrupt. -/
theorem step_pending {s : State} (ha : s.agenda = []) (hr : s.dev.coreRuns = true) (hp : s.pending ≠ .none) : step s = s.fetchExec := by
  simp [step, State.stepOf, ha, State.coreStep, hr, hp]

/-! ## The top of the address space (R32) -/

theorem wraps_iff {pc next : Word} {ds : Bool} {recent : List Trace} :
    wraps pc ds recent next = true ↔
      if ds then pc = 0xFFFFFFFC ∧ next = 0 ∧ recent.head? = some .untaken
      else (pc = 0xFFFFFFFC ∧ next.toNat < 8) ∨ (pc = 0xFFFFFFF8 ∧ next = 0) := by
  cases ds <;> simp [wraps, and_assoc]

theorem State.checkWrap_wraps {s u : State} (h : wraps s.pc s.ds s.recent u.pc = true) : s.checkWrap (.next u) = .refused .pcWrap :=
  if_pos h

theorem State.checkWrap_stays {s u : State} (h : ¬ wraps s.pc s.ds s.recent u.pc = true) : s.checkWrap (.next u) = .next u := if_neg h

/-- Settles O5: in each of the three cases the step is the check of the program counter after the instruction. -/
theorem stepRunsDecodedInstruction : Obligations.StepRunsDecodedInstruction := by
  intro s t w i ha hr hd hcase o offTop
  have hword : t.execWord w = o := State.execWord_instr hd
  have hstep : step s = s.checkWrap o := by
    rw [← hword]
    rcases hcase with ⟨hp, rfl⟩ | ⟨hp, hf⟩ | ⟨hp, hn, hi, hf⟩
    · rw [step_pending ha hr (by simp [hp]), State.fetchExec_inProgress hp]
    · rw [step_pending ha hr (by simp [hp]), State.fetchExec_fetched (by simp [hp]) hf]
    · rw [step_boundary ha hr hp hn, hi, if_neg Bool.false_ne_true, State.fetchExec_fetched (by simp [hp]) hf]
  rw [hstep]
  refine ⟨fun u hu => ?_, fun r hu => by rw [hu]; rfl⟩
  rw [hu]
  exact ⟨fun h => State.checkWrap_wraps (wraps_iff.mpr h), fun h => State.checkWrap_stays (mt wraps_iff.mp h)⟩

end Sys2Proof.Machine
end

section
/-!
SUPPORT and PROOFS. The bytes of a merge, and what the two unaligned loads write (O23).
-/

namespace Sys2Proof.Machine

/-! ## The bytes of a merge (R430, R431) -/

theorem byteOf_or (x y : Word) (n : Nat) : byteOf (x ||| y) n = byteOf x n ||| byteOf y n := BitVec.extractLsb'_or

theorem byteOf_and (x y : Word) (n : Nat) : byteOf (x &&& y) n = byteOf x n &&& byteOf y n := BitVec.extractLsb'_and

theorem byteOf_not (x : Word) {n : Nat} (hn : n < 4) : byteOf (~~~x) n = ~~~byteOf x n := by
  apply BitVec.eq_of_getLsbD_eq
  intro i hi
  have hin : 8 * n + i < 32 := by omega
  simp [byteOf, hi, hin]

theorem byteOf_ones : ∀ n < 4, byteOf 0xFFFFFFFF#32 n = BitVec.allOnes 8 := by decide

/-- A word has no byte above its fourth. -/
theorem byteOf_beyond (x : Word) {n : Nat} (hn : 4 ≤ n) : byteOf x n = 0#8 := by
  apply BitVec.eq_of_getLsbD_eq
  intro i hi
  have hout : 32 ≤ 8 * n + i := by omega
  simp [byteOf, BitVec.getLsbD_of_ge _ _ hout]

/-- A shift to the left fills the bytes below with zeros. -/
theorem byteOf_shiftLeft_below (x : Word) {k n : Nat} (h : n < k) : byteOf (x <<< (8 * k)) n = 0#8 := by
  apply BitVec.eq_of_getLsbD_eq
  intro i hi
  have hlow : 8 * n + i < 8 * k := by omega
  simp [byteOf, hlow]

/-- `lwl` puts the bytes of the word from byte `k` on upwards and keeps those below (R430). -/
theorem byteOf_mergeLeft (w old : Word) {k n : Nat} (hn : n < 4) :
    byteOf (mergeLeft w old k) n = if n < k then byteOf old n else byteOf w (n - k) := by
  rw [mergeLeft, byteOf_or, byteOf_and, byteOf_not _ hn]
  split
  case isTrue h =>
    rw [byteOf_shiftLeft_below _ h, byteOf_shiftLeft_below _ h, BitVec.not_zero, BitVec.and_allOnes, BitVec.zero_or]
  case isFalse h =>
    have hk : k ≤ n := Nat.le_of_not_lt h
    rw [byteOf_shiftLeft _ hk hn, byteOf_shiftLeft _ hk hn, byteOf_ones _ (by omega),
      BitVec.not_allOnes, BitVec.and_zero, BitVec.or_zero]

/-- `lwr` puts the bytes of the word from byte `k` of it on downwards and keeps those above (R431). -/
theorem byteOf_mergeRight (w old : Word) {k n : Nat} (hn : n < 4) :
    byteOf (mergeRight w old k) n = if n + k < 4 then byteOf w (n + k) else byteOf old n := by
  rw [mergeRight, byteOf_or, byteOf_and, byteOf_not _ hn, byteOf_shiftRight, byteOf_shiftRight]
  split
  case isTrue h =>
    rw [byteOf_ones _ h, BitVec.not_allOnes, BitVec.and_zero, BitVec.zero_or]
  case isFalse h =>
    have hk : 4 ≤ n + k := Nat.le_of_not_lt h
    rw [byteOf_beyond _ hk, byteOf_beyond _ hk, BitVec.not_zero, BitVec.and_allOnes, BitVec.or_zero]

/-- Settles O23: each of the two loads completes with its merge at the shift that the byte order gives. -/
theorem unalignedLoads : Obligations.UnalignedLoads := by
  intro s u rs rt imm w va big o
  refine ⟨fun h => ⟨_, Loads.of_load h (exec_lwl ..) (Nat.mod_one _), fun n hn => ?_⟩,
    fun h => ⟨_, Loads.of_load h (exec_lwr ..) (Nat.mod_one _), fun n hn => ?_⟩⟩
  · exact byteOf_mergeLeft w (s.mergeReg rt .left) hn
  · exact byteOf_mergeRight w (s.mergeReg rt .right) hn

end Sys2Proof.Machine
end

section
/-!
SUPPORT and PROOFS. How draining the write buffer can end and what `sync` makes of it; the branches on a coprocessor condition; `syscall` and `break`
(O21, O31, O32).
-/

namespace Sys2Proof.Machine

/-! ## Where a part of an instruction ended -/

theorem Res.All.of_ok {α : Type} {P : State → Prop} {r : Res α} {a : α} {t : State} (h : r.All P) (hr : r = .ok a t) : P t := by
  subst hr
  exact h

theorem Res.All.of_wait {α : Type} {P : State → Prop} {r : Res α} {t : State} (h : r.All P) (hr : r = .wait t) : P t := by
  subst hr
  exact h

/-- What waits in two parts waits in the first, or in the second after it. -/
theorem Res.bind_eq_wait {α β : Type} {r : Res α} {k : α → State → Res β} {u : State} (h : r.bind k = .wait u) :
    r = .wait u ∨ ∃ a t, r = .ok a t ∧ k a t = .wait u := by
  cases r with
  | ok a t => exact .inr ⟨a, t, rfl, h⟩
  | exc e t => cases h
  | wait t => cases h; exact .inl rfl
  | refused r => cases h

/-! ## A write buffer that waits (R120, R448) -/

/-- An entry that waits for the bus stays in the write buffer, before the others. -/
theorem State.drainOne_wait {s d : State} (h : s.drainOne = .wait d) : s.wb ≠ [] ∧ d.wb = s.wb := by
  unfold State.drainOne at h
  split at h
  case h_1 => cases h
  case h_2 e es hwb =>
    rcases Res.bind_eq_wait h with hw | ⟨_, _, _, hdone⟩
    · exact ⟨by simp [hwb], ((s.busWrite_frame e).of_wait hw).wb⟩
    · cases hdone

/-- A buffer that waits is not empty. -/
theorem State.drain_wait {n : Nat} {s d : State} (h : State.drain n s = .wait d) : d.wb ≠ [] := by
  induction n generalizing s with
  | zero => cases h
  | succ n ih =>
    unfold State.drain at h
    split at h
    case isTrue => cases h
    case isFalse =>
      rcases Res.bind_eq_wait h with hw | ⟨_, _, _, hrest⟩
      · obtain ⟨hne, hwb⟩ := State.drainOne_wait hw
        rwa [hwb]
      · exact ih hrest

/-! ## `sync` (R448) -/

theorem exec_sync_of_drained {s d : State} (h : s.drainAll = .ok () d) : exec .sync s = .next (d.retire .plain) := by
  change (s.drainAll.bind _).outcome = _
  rw [h]
  rfl

theorem exec_sync_of_waiting {s d : State} (h : s.drainAll = .wait d) : exec .sync s = .next d := by
  change (s.drainAll.bind _).outcome = _
  rw [h]
  rfl

/-- Settles O31: `sync` completes in the state that draining ends in, or is that state while the bus keeps an entry waiting; draining changes
neither the registers nor the place in the program. -/
theorem syncEmptiesWriteBuffer : Obligations.SyncEmptiesWriteBuffer := by
  intro s
  have hframe := s.drainAll_frame.1
  refine ⟨fun d hd => ?drained, fun d hd => ?waiting, fun hwb => ?empty⟩
  case drained =>
    have hsame := (hframe.of_ok hd).toSameCore
    obtain ⟨hregs, ⟨hhi, hlo⟩, hkeeps, hpc, hnpc, hds, hpending⟩ := d.retire_keeps .plain
    exact ⟨_, exec_sync_of_drained hd, s.drainAll_frame.2 d hd, fun r => (hregs r).trans (hsame.reg r),
      ⟨hhi.trans hsame.hi, hlo.trans hsame.lo⟩, hkeeps, hsame.cp0, hsame.tlb,
      ⟨hpc.trans hsame.npc, hnpc.trans (by rw [hsame.npc]), hds, hpending⟩⟩
  case waiting =>
    have hsame := (hframe.of_wait hd).toSameCore
    exact ⟨exec_sync_of_waiting hd, State.drain_wait hd, hsame.pc, hsame.npc, hsame.ds, hsame.pending⟩
  case empty => exact ⟨_, exec_sync_of_drained (State.drainAll_empty hwb), s.retire_keeps .plain⟩

/-! ## The branches on a coprocessor condition (R447) -/

theorem forall_mem_pair {α : Type} {p : α → Prop} {a b : α} : (∀ x ∈ [a, b], p x) ↔ p a ∧ p b := by
  simp only [List.forall_mem_cons, List.not_mem_nil, false_imp_iff, implies_true, and_true]

/-- Settles O21: each is a refusal or an ordinary branch on IRQHIGH, behind the check of usability. -/
theorem interruptConditionBranches : Obligations.InterruptConditionBranches := by
  intro s imm unusable goes
  have unusable_of {z : Nat} {i j : Instr} {k m : Host.Outcome State Fault Refusal} (hi : exec i s = s.withCop z k)
      (hj : exec j s = s.withCop z m) : unusable z [i, j] :=
    forall_mem_pair.mpr ⟨fun h => hi.trans (State.withCop_unusable h), fun h => hj.trans (State.withCop_unusable h)⟩
  have goes_of {i : Instr} {taken : Bool} {c : Prop} (hs : s.ds = false) (h : exec i s = s.branch taken imm) (hc : taken = true ↔ c) :
      goes i c := exec_of_branch hs h hc
  clear_value unusable goes
  refine ⟨unusable_of rfl rfl, unusable_of rfl rfl, unusable_of rfl rfl, fun h1 => ?cop1, fun h2 => ?cop2, fun h3 => ?cop3⟩
  case cop1 => exact forall_mem_pair.mpr ⟨State.withCop_usable h1, State.withCop_usable h1⟩
  case cop2 => exact forall_mem_pair.mpr ⟨State.withCop_usable h2, State.withCop_usable h2⟩
  case cop3 =>
    have bc3f_branches : exec (.bc3f imm) s = s.branch (!s.dev.intr.irqHigh) imm := State.withCop_usable h3
    have bc3t_branches : exec (.bc3t imm) s = s.branch s.dev.intr.irqHigh imm := State.withCop_usable h3
    split
    case isTrue hslot =>
      exact forall_mem_pair.mpr ⟨bc3f_branches.trans (State.transfer_slot hslot _), bc3t_branches.trans (State.transfer_slot hslot _)⟩
    case isFalse hfree =>
      have hs : s.ds = false := Bool.eq_false_iff.mpr hfree
      exact ⟨goes_of hs bc3t_branches Iff.rfl, goes_of hs bc3f_branches (by rw [Bool.not_eq_true'])⟩

/-! ## `syscall` and `break` (R440, R441) -/

/-- Settles O32: neither instruction reads its code field. -/
theorem syscallAndBreak : Obligations.SyscallAndBreak := fun _ _ => ⟨rfl, rfl⟩

end Sys2Proof.Machine
end

section
/-!
SUPPORT and PROOFS. Exception entry: what it saves, the addresses that it records, its vectors; the NMI (O33, O34, O35, O39).
-/

namespace Sys2Proof.Machine

/-! ## The fields of a masked write -/

/-- A masked write takes the bits of its mask from the new word. -/
theorem getLsbD_maskedWrite (mask old new : Word) (i : Nat) :
    (maskedWrite mask old new).getLsbD i = if mask.getLsbD i then new.getLsbD i else old.getLsbD i := by
  by_cases hi : i < 32
  · simp only [maskedWrite, BitVec.getLsbD_or, BitVec.getLsbD_and, BitVec.getLsbD_not, hi, decide_true, Bool.true_and]
    cases mask.getLsbD i <;> simp
  · simp only [BitVec.getLsbD_of_ge _ _ (Nat.le_of_not_lt hi), if_false, Bool.false_eq_true]

/-- A field inside the mask is that of the new word. -/
theorem extractLsb'_maskedWrite_inside {mask : Word} {start len : Nat} (hm : ∀ i < len, mask.getLsbD (start + i) = true) (old new : Word) :
    (maskedWrite mask old new).extractLsb' start len = new.extractLsb' start len := by
  apply BitVec.eq_of_getLsbD_eq
  intro i hi
  rw [BitVec.getLsbD_extractLsb', BitVec.getLsbD_extractLsb', getLsbD_maskedWrite, if_pos (hm i hi)]

/-- A field outside the mask stays. -/
theorem extractLsb'_maskedWrite_outside {mask : Word} {start len : Nat} (hm : ∀ i < len, mask.getLsbD (start + i) = false) (old new : Word) :
    (maskedWrite mask old new).extractLsb' start len = old.extractLsb' start len := by
  apply BitVec.eq_of_getLsbD_eq
  intro i hi
  rw [BitVec.getLsbD_extractLsb', BitVec.getLsbD_extractLsb', getLsbD_maskedWrite, hm i hi, if_neg Bool.false_ne_true]

/-! ## What an exception saves (R461, R465) -/

/-- The push puts bits 3:0 above two zeros. -/
theorem pushStatus_low (st : Word) : (pushStatus st).extractLsb' 0 6 = st.extractLsb' 0 4 ++ 0#2 := by
  apply BitVec.eq_of_getLsbD_eq
  intro i hi
  rw [BitVec.getLsbD_extractLsb', Nat.zero_add, getLsbD_pushStatus, BitVec.getLsbD_append, BitVec.getLsbD_extractLsb']
  split
  case isTrue => simp
  case isFalse h2 =>
    have hin : i - 2 < 4 := by omega
    simp [hi, hin]

theorem pushStatus_high (st : Word) : (pushStatus st).extractLsb' 6 26 = st.extractLsb' 6 26 := by
  rw [pushStatus_eq]
  exact extractLsb'_maskedWrite_outside (by decide) _ _

/-- Outside coprocessor 0 an exception changes no more than the place in the program and what the hazards look back on. -/
theorem State.raise_keeps (s : State) (e : Exc) :
    KeepsRegs s (s.raise e) ∧ KeepsAcc s (s.raise e) ∧ Keeps s { s.raise e with cp0 := s.cp0 } :=
  ⟨s.raise_reg e, ⟨rfl, rfl⟩, ⟨rfl, rfl, rfl, fun _ => rfl, rfl, rfl, rfl, rfl, rfl⟩⟩

/-- Settles O33: only ExcCode and CE depend on the exception; the rest is the push of the mode stack and the frame. -/
theorem exceptionEntry : Obligations.ExceptionEntry := by
  intro s e t excCode
  have hcode : t.cp0.exc.toNat = excCode := by cases e <;> rfl
  have hce : ∀ z, e = .cpu z → t.cp0.ce = z := by
    rintro z rfl
    rfl
  exact ⟨rfl, rfl, hcode, hce, pushStatus_low _, pushStatus_high _, rfl, rfl, rfl, rfl, rfl, rfl, s.raise_keeps e⟩

/-! ## The addresses that an exception records (R466) -/

theorem State.raise_badVAddr (s : State) (e : Exc) : (s.raise e).cp0.badVAddr = e.badVAddr.getD s.cp0.badVAddr := rfl

theorem State.raise_badVAddr_of_some (s : State) {e : Exc} {va : Word} (h : e.badVAddr = some va) : (s.raise e).cp0.badVAddr = va := by
  rw [State.raise_badVAddr, h, Option.getD_some]

theorem State.raise_badVAddr_of_none (s : State) {e : Exc} (h : e.badVAddr = none) : (s.raise e).cp0.badVAddr = s.cp0.badVAddr := by
  rw [State.raise_badVAddr, h, Option.getD_none]

/-- An exception that is not of the TLB leaves Context and EntryHi alone. -/
theorem State.raise_page_of_none (s : State) {e : Exc} (h : e.tlbVa = none) :
    (s.raise e).cp0.context = s.cp0.context ∧ (s.raise e).cp0.entryHi = s.cp0.entryHi := by
  simp only [State.raise_cp0, Cp0.raise, Exc.entryHi, h, and_self]

/-- The page number of the address that a TLB exception records, and the fields beside it. -/
theorem State.raise_page_of_some (s : State) {e : Exc} {va : Word} (h : e.tlbVa = some va) :
    let c := (s.raise e).cp0
    c.context.extractLsb' 2 19 = va.extractLsb' 12 19 ∧ c.context.extractLsb' 21 11 = s.cp0.context.extractLsb' 21 11 ∧
      c.entryHi.extractLsb' 12 20 = va.extractLsb' 12 20 ∧ c.entryHi.extractLsb' 0 12 = s.cp0.entryHi.extractLsb' 0 12 := by
  have hshift : ((va >>> 10) &&& 0x001FFFFC).extractLsb' 2 19 = va.extractLsb' 12 19 := by
    have hmask : ∀ i < 19, (0x001FFFFC : Word).getLsbD (2 + i) = true := by decide
    apply BitVec.eq_of_getLsbD_eq
    intro i hi
    simp only [BitVec.getLsbD_extractLsb', BitVec.getLsbD_and, BitVec.getLsbD_ushiftRight, hmask i hi, Bool.and_true, ← Nat.add_assoc]
  simp only [State.raise_cp0, Cp0.raise, Exc.entryHi, h]
  exact ⟨(extractLsb'_maskedWrite_inside (by decide) _ _).trans hshift, extractLsb'_maskedWrite_outside (by decide) _ _,
    extractLsb'_maskedWrite_inside (by decide) _ _, extractLsb'_maskedWrite_outside (by decide) _ _⟩

/-- Settles O34: each class of exceptions by what it has to record. -/
theorem exceptionAddresses : Obligations.ExceptionAddresses := by
  intro s va refill
  have haddressErrors : ∀ e ∈ [Exc.adel va, .ades va], e.badVAddr = some va ∧ e.tlbVa = none := by
    simp [Exc.badVAddr, Exc.tlbVa]
  have htlb : ∀ e ∈ [Exc.mod va, .tlbl va refill, .tlbs va refill], e.badVAddr = some va ∧ e.tlbVa = some va := by
    simp [Exc.badVAddr, Exc.tlbVa]
  have hothers : ∀ e ∈ [Exc.int, .ibe, .dbe, .sys, .bp, .ri, .ov, .cpu 0, .cpu 1, .cpu 2, .cpu 3], e.badVAddr = none ∧ e.tlbVa = none := by
    simp [Exc.badVAddr, Exc.tlbVa]
  refine ⟨fun e he => ?addressErrors, fun e he => ?tlb, fun e he => ?others⟩
  case addressErrors =>
    obtain ⟨hb, hpage⟩ := haddressErrors e he
    exact ⟨s.raise_badVAddr_of_some hb, s.raise_page_of_none hpage⟩
  case tlb =>
    obtain ⟨hb, hpage⟩ := htlb e he
    exact ⟨s.raise_badVAddr_of_some hb, s.raise_page_of_some hpage⟩
  case others =>
    obtain ⟨hb, hpage⟩ := hothers e he
    exact ⟨s.raise_badVAddr_of_none hb, s.raise_page_of_none hpage⟩

/-! ## The vectors (R467, R468) -/

theorem Exc.utlbMiss_iff {e : Exc} : e.utlbMiss = true ↔ ∃ va : Word, va.getLsbD 31 = false ∧ (e = .tlbl va true ∨ e = .tlbs va true) := by
  cases e <;> simp [Exc.utlbMiss, and_comm]

/-- Without a write of Status in the window the vector is chosen by BEV as it is. -/
theorem StatusSettled.raise_pc {s : State} (h : StatusSettled s) (e : Exc) :
    (s.raise e).pc = vectorOf (s.cp0.status.getLsbD 22) e.utlbMiss := by
  have hbev : bitOf (s.cp0.status &&& 0x00400000) 22 = s.cp0.status.getLsbD 22 := by simp [bitOf]
  rw [State.raise_pc, h.seenStatus, hbev]

theorem vectorOf_refill (bev : Bool) : vectorOf bev true = if bev then 0xBFC00100 else 0x80000000 := by cases bev <;> rfl

theorem vectorOf_general (bev : Bool) : vectorOf bev false = if bev then 0xBFC00180 else 0x80000080 := by cases bev <;> rfl

/-- Settles O35: the vector is the refill vector exactly for a UTLB miss. -/
theorem exceptionVectors : Obligations.ExceptionVectors := by
  intro s e va hs bev
  refine ⟨fun hva f hf => ?refill, fun hne => ?general⟩
  case refill =>
    have hmiss : f.utlbMiss = true := Exc.utlbMiss_iff.mpr ⟨va, hva, by simpa using hf⟩
    rw [hs.raise_pc, hmiss, vectorOf_refill]
  case general =>
    have hmiss : e.utlbMiss = false := by
      refine Bool.eq_false_iff.mpr fun h => ?_
      obtain ⟨v, hv, he⟩ := Exc.utlbMiss_iff.mp h
      exact he.elim (hne v hv).1 (hne v hv).2
    rw [hs.raise_pc, hmiss, vectorOf_general]

/-! ## The NMI (R463, R476, D34) -/

/-- At an instruction boundary a pending NMI is taken, whatever interrupt is pending. -/
theorem step_nmi {s : State} (ha : s.agenda = []) (hr : s.dev.coreRuns = true) (hp : s.pending = .none) (hn : s.dev.intr.nmi = true) :
    step s = .next s.takeNmi := by
  simp [step, State.stepOf, ha, State.coreStep, hr, hp, hn]

/-- Kernel mode with interrupts off, whatever the open bits are. -/
theorem getLsbD_nmiStatus_low (o st : Word) {i : Nat} (hi : i < 2) : (nmiStatus o st).getLsbD i = false := by
  have hmask : ∀ j < 2, (~~~0x3#32).getLsbD j = false := by decide
  rw [nmiStatus, BitVec.getLsbD_and, hmask i hi, Bool.and_false]

/-- Settles O39: the step is the taking of the NMI, which clears KUc and IEc. -/
theorem nmiTaken : Obligations.NmiTaken := fun s ha hr hp hn =>
  ⟨s.takeNmi, step_nmi ha hr hp hn, s.takeNmi_pc, s.takeNmi_npc, s.takeNmi_ds, getLsbD_nmiStatus_low _ _ (by decide),
    getLsbD_nmiStatus_low _ _ (by decide), s.takeNmi_reg, ⟨s.takeNmi_hi, s.takeNmi_lo⟩, s.takeNmi_tlb, fun a => by rw [s.takeNmi_mem]⟩

end Sys2Proof.Machine
end

section
/-!
SUPPORT and PROOFS. Operands in and out of the hazards; HI or LO written in the window of R1081; the Interrupt Module; the periodic timer (O7, O15,
O54, O55).
-/

namespace Sys2Proof.Machine

/-! ## Operands (R1080, R1082) -/

/-- What `lwl` or `lwr` merges into after a load of `q`: the loaded value where the load was the other of the two, else an operand. -/
theorem State.mergeReg_loaded {s : State} {q : Reg} {old : Word} {k : LoadKind} {ts : List Trace} (h : s.recent = .loaded q old k :: ts)
    (r : Reg) (m : LoadKind) :
    s.mergeReg r m = if r = q ∧ ((m = .left ∧ k = .right) ∨ (m = .right ∧ k = .left)) then s.reg r else s.opReg r := by
  simp only [State.mergeReg, h, Bool.and_eq_true, Bool.or_eq_true, decide_eq_true_eq, eq_comm (a := q)]

/-- Settles O7: without hazards no choice has an alternative; after a load the old value is the only one. -/
theorem operandValues : Obligations.OperandValues :=
  ⟨fun _ r hn => ⟨hn.opReg r, hn.mergeReg r, hn.seenEntryHi, hn.seenEntryLo, hn.seenIndex, hn.seenStatus, hn.seenTlb⟩,
    fun s r q old k m ts h => ⟨s.opReg_loaded r q old k ts h, State.mergeReg_loaded h r m⟩⟩

/-! ## HI or LO written in the window of R1081 -/

/-- Where the value of one of them has been used, the traces spoil nothing and the run is refused. -/
theorem State.spoil_used {ts : List Trace} (h : (ts.filterMap Trace.hiLo).any (·.2) = true) (s : State) :
    s.spoil ts = .error .hiLoHazard := by
  induction ts generalizing s with
  | nil => cases h
  | cons x ts ih =>
    cases x with
    | hiLoRead rd used =>
      cases used with
      | true => rfl
      | false => exact ih h _
    | _ => exact ih h s

/-- Where none has been used, only registers that HI or LO was read into change. -/
theorem State.spoil_unused {ts : List Trace} (h : (ts.filterMap Trace.hiLo).any (·.2) = false) (s : State) :
    ∃ g, s.spoil ts = .ok { s with gpr := g } ∧
      ∀ r, (∀ q ∈ ts.filterMap Trace.hiLo, q.1 ≠ r) → State.reg { s with gpr := g } r = s.reg r := by
  induction ts generalizing s with
  | nil => exact ⟨s.gpr, rfl, fun _ _ => rfl⟩
  | cons x ts ih =>
    cases x with
    | hiLoRead rd used =>
      cases used with
      | true => cases h
      | false =>
        obtain ⟨g, hok, hregs⟩ := ih h (s.setReg rd (s.free (tagHiLo + ts.length)))
        refine ⟨g, hok, fun r hr => ?_⟩
        obtain ⟨hrd, hrest⟩ := List.forall_mem_cons.mp hr
        calc State.reg { s with gpr := g } r
          _ = (s.setReg rd (s.free (tagHiLo + ts.length))).reg r := hregs r hrest
          _ = s.reg r := by rw [State.setReg_reg, if_neg fun hc => hrd hc.1.symm]
    | _ => exact ih h s

/-- The frame does not look at the general registers. -/
theorem Keeps.of_gpr {s t : State} {g : Vector Word 32} (h : Keeps { s with gpr := g } t) : Keeps s t :=
  ⟨h.cp0, h.tlb, h.wb, h.mem, h.icache, h.dcache, h.dev, h.board, h.agenda⟩

/-- An instruction that answers `writeHiLo`, in every state: it is refused where a value read has been used; else it completes as it does from
some registers `g`, which differ from those before in the ones read into alone. -/
theorem exec_of_writeHiLo {i : Instr} {s : State} {k : State → State} {d : Reg} {p : State → Prop} (h : exec i s = s.writeHiLo k)
    (hk : ∀ g, let u : State := { s with gpr := g }; let t := (k u).retire .plain
      p t ∧ WritesReg u t d t.lo ∧ Keeps u t ∧ Advances u t) :
    let reads := (s.recent.take 2).filterMap Trace.hiLo
    if reads.any (·.2) then exec i s = .refused .hiLoHazard
    else ∃ t, exec i s = .next t ∧ p t ∧ (∀ r, r ≠ d → (∀ q ∈ reads, q.1 ≠ r) → t.reg r = s.reg r) ∧ (d ≠ 0 → t.reg d = t.lo) ∧
      Keeps s t ∧ Advances s t := by
  intro reads
  split
  case isTrue hused => rw [h, State.writeHiLo, State.spoil_used hused]
  case isFalse hunused =>
    obtain ⟨g, hok, hregs⟩ := State.spoil_unused (Bool.eq_false_iff.mpr hunused) s
    obtain ⟨hp, hwrites, hkeeps, hadvances⟩ := hk g
    refine ⟨_, by rw [h, State.writeHiLo, hok], hp, fun r hr hread => ?others, fun hd => ?dest, hkeeps.of_gpr, hadvances⟩
    case others => rw [hwrites r, if_neg fun hc => hr hc.1, hregs r hread]
    case dest => rw [hwrites d, if_pos ⟨rfl, hd⟩]

/-- What changes no register writes none: a write of register 0 is discarded. -/
theorem KeepsRegs.writesZero {s t : State} (h : KeepsRegs s t) (v : Word) : WritesReg s t 0 v := fun r => by
  rw [h r, if_neg fun hc => hc.2 rfl]

/-- Settles O15: each instruction answers `writeHiLo`, and from any registers it writes what it writes outside the window. -/
theorem hiLoHazard : Obligations.HiLoHazard := by
  intro s rs rt rd reads x y writes
  have hiLo_of {i : Instr} {k : State → State} {hi lo : Word} {p : State → Prop} (h : exec i s = s.writeHiLo k)
      (hk : ∀ g, k { s with gpr := g } = { s with gpr := g, hi, lo }) (hp : ∀ t : State, t.hi = hi → t.lo = lo → p t) : writes i 0 p :=
    exec_of_writeHiLo h fun g => by
      obtain ⟨hregs, hframe⟩ := State.setHiLo_retire_keeps { s with gpr := g } hi lo .plain
      intro u t
      have ht : t = State.retire { u with hi, lo } .plain := congrArg (State.retire · .plain) (hk g)
      rw [ht]
      exact ⟨hp _ rfl rfl, hregs.writesZero _, hframe⟩
  have div_of {i : Instr} {q r : Word} {p : State → Prop} (h : exec i s = s.writeDiv (y = 0) q r)
      (hp : ∀ t : State, (y ≠ 0 → t.lo = q ∧ t.hi = r) → p t) : writes i 0 p :=
    hiLo_of h (fun _ => rfl) fun t hhi hlo => hp t fun hy => by
      have hdivisor : ¬ decide (y = 0) = true := mt of_decide_eq_true hy
      rw [hhi, hlo, if_neg hdivisor, if_neg hdivisor]
      exact ⟨rfl, rfl⟩
  have acc_of {i : Instr} {v : BitVec 64} {p : State → Prop} (h : exec i s = s.writeAcc rd v) (hp : ∀ t : State, t.acc = v → p t) :
      writes i rd p := exec_of_writeHiLo h fun g => by
    obtain ⟨hacc, hframe⟩ := State.setAcc_setReg_retire_frame { s with gpr := g } rd v .plain
    exact ⟨hp _ hacc, hframe⟩
  clear_value writes
  refine ⟨?mthi, ?mtlo, ?mult, ?multu, ?madd, ?maddu, ?div, ?divu⟩
  case mthi => exact hiLo_of rfl (fun _ => rfl) fun t hhi hlo => ⟨hhi, hlo⟩
  case mtlo => exact hiLo_of rfl (fun _ => rfl) fun t hhi hlo => ⟨hlo, hhi⟩
  case mult => exact acc_of rfl fun t hacc => hacc ▸ toInt_mulSigned x y
  case multu => exact acc_of rfl fun t hacc => hacc ▸ toNat_mulUnsigned x y
  case madd => exact acc_of rfl fun t hacc => hacc.trans (add_mulSigned s.acc x y)
  case maddu => exact acc_of rfl fun t hacc => hacc.trans (add_mulUnsigned s.acc x y)
  case div =>
    refine div_of rfl fun t hresult hy hcorner => ?_
    obtain ⟨hlo, hhi⟩ := hresult hy
    exact ⟨hlo ▸ toInt_divSigned hcorner, hhi ▸ toInt_remSigned x y⟩
  case divu =>
    refine div_of rfl fun t hresult hy => ?_
    obtain ⟨hlo, hhi⟩ := hresult hy
    exact ⟨hlo ▸ toNat_divUnsigned x y, hhi ▸ toNat_remUnsigned x y⟩

/-! ## The Interrupt Module (R633 to R639) -/

/-- The status latch of register `n` (R633), as `Intr.set` and `Intr.clear` number them. -/
def Intr.latch (i : Intr) (n : Nat) : Word :=
  if n = 1 then i.st1 else if n = 2 then i.st2 else if n = 3 then i.st3 else if n = 4 then i.st4 else i.st5

theorem Intr.latch_set (i : Intr) {n : Nat} (h1 : 1 ≤ n) (h5 : n ≤ 5) (v : Word) : (i.set n v).latch n = i.latch n ||| v := by
  interval_cases n <;> rfl

theorem Intr.latch_clear (i : Intr) {n : Nat} (h1 : 1 ≤ n) (h5 : n ≤ 5) (v : Word) : (i.clear n v).latch n = i.latch n &&& ~~~v := by
  interval_cases n <;> rfl

/-- An enable word without a bit gates nothing, so the gate is the common bit alone (R635). -/
theorem anyGated_iff (st en : Word) : anyGated st en = true ↔ ∃ j < 32, st.getLsbD j = true ∧ en.getLsbD j = true := by
  rw [← and_ne_zero_iff]
  simp only [anyGated, Bool.and_eq_true, bne_iff_ne, and_iff_right_iff_imp]
  rintro h rfl
  exact h BitVec.and_zero

theorem Intr.irqLow_iff (i : Intr) : i.irqLow = true ↔ i.en6.getLsbD 18 = true ∧
    ∃ j < 32, (i.st1.getLsbD j = true ∧ i.en1.getLsbD j = true) ∨ (i.st2.getLsbD j = true ∧ i.en2.getLsbD j = true) ∨
      (i.st3.getLsbD j = true ∧ i.en3.getLsbD j = true) ∨ (i.st4.getLsbD j = true ∧ i.en4.getLsbD j = true) ∨
      (i.st5.getLsbD j = true ∧ i.en5.getLsbD j = true) := by
  simp only [Intr.irqLow, Intr.globalEn, Intr.anyEnabled, bitOf, Bool.and_eq_true, Bool.or_eq_true, anyGated_iff, and_or_left, exists_or,
    or_assoc]

/-- The bits of a word under a mask, as the OR of the bits that the mask selects (R638). -/
theorem and_mask_bne_zero_eq_any {mask : Word} {ks : List Nat} (hm : ∀ k < 32, mask.getLsbD k = decide (k ∈ ks)) (w : Word) :
    ((w &&& mask) != 0) = ks.any w.getLsbD := by
  rw [Bool.eq_iff_iff, bne_iff_ne, and_ne_zero_iff, List.any_eq_true]
  constructor
  · rintro ⟨k, hk, hw, hmask⟩
    exact ⟨k, of_decide_eq_true ((hm k hk).symm.trans hmask), hw⟩
  · rintro ⟨k, hmem, hw⟩
    have hk : k < 32 := BitVec.lt_of_getLsbD hw
    exact ⟨k, hk, hw, (hm k hk).trans (decide_eq_true hmem)⟩

/-- No bit up to `n` stands above the highest. -/
theorem le_topBit {v : BitVec 16} {n k : Nat} (hk : k ≤ n) (hv : v.getLsbD k = true) : k ≤ topBit v n := by
  induction n with
  | zero => exact hk
  | succ n ih =>
    unfold topBit
    split
    case isTrue => exact hk
    case isFalse hclear =>
      have hne : k ≠ n + 1 := by
        rintro rfl
        exact hclear hv
      exact ih (by omega)

/-- The highest bit is set, unless it is the 0 that stands for none. -/
theorem getLsbD_topBit (v : BitVec 16) (n : Nat) : topBit v n = 0 ∨ v.getLsbD (topBit v n) = true := by
  induction n with
  | zero => exact .inl rfl
  | succ n ih =>
    unfold topBit
    split
    case isTrue hset => exact .inr hset
    case isFalse => exact ih

theorem topBit_le (v : BitVec 16) (n : Nat) : topBit v n ≤ n := by
  induction n with
  | zero => exact Nat.le_refl 0
  | succ n ih =>
    unfold topBit
    split
    case isTrue => exact Nat.le_refl _
    case isFalse => exact Nat.le_succ_of_le ih

/-- INTVECT holds the number of every level. -/
theorem Intr.vector_toNat (i : Intr) : i.vector.toNat = topBit i.highMasked 15 := by
  have hle := topBit_le i.highMasked 15
  rw [Intr.vector, BitVec.toNat_ofNat, Nat.mod_eq_of_lt (by omega)]

/-- A word of levels is not 0 exactly when some level is in it. -/
theorem levels_ne_zero_iff (v : BitVec 16) : v ≠ 0 ↔ ∃ k < 16, v.getLsbD k = true := by
  have h := and_ne_zero_iff v v
  simpa only [BitVec.and_self, and_self] using h

theorem Intr.getLsbD_highMasked (i : Intr) {k : Nat} (hk : k < 16) :
    i.highMasked.getLsbD k = (i.highRaw.getLsbD k && i.en6.getLsbD k) := by
  rw [Intr.highMasked, BitVec.getLsbD_and, BitVec.getLsbD_extractLsb', Nat.zero_add, decide_eq_true hk, Bool.true_and]

theorem Intr.irqHigh_iff (i : Intr) : i.irqHigh = true ↔ i.en6.getLsbD 18 = true ∧ ∃ k < 16, i.highMasked.getLsbD k = true := by
  rw [Intr.irqHigh, Bool.and_eq_true, bne_iff_ne, levels_ne_zero_iff]
  rfl

/-- INTVECT is at least every level that is pending and masked in. -/
theorem Intr.le_vector (i : Intr) {k : Nat} (hk : k < 16) (h : i.highMasked.getLsbD k = true) : k ≤ i.vector.toNat := by
  rw [i.vector_toNat]
  exact le_topBit (Nat.le_of_lt_succ hk) h

/-- INTVECT is such a level itself, where there is one: if it is 0, level 0 is the only one that there can be. -/
theorem Intr.vector_pending (i : Intr) (h : i.highMasked ≠ 0) : i.highMasked.getLsbD i.vector.toNat = true := by
  obtain ⟨k, hk, hpending⟩ := (levels_ne_zero_iff _).mp h
  have hle := i.le_vector hk hpending
  rw [i.vector_toNat] at hle ⊢
  rcases getLsbD_topBit i.highMasked 15 with hzero | hset
  · rw [hzero] at hle ⊢
    rwa [Nat.le_zero.mp hle] at hpending
  · exact hset

theorem Intr.vector_of_none (i : Intr) (h : i.highMasked = 0) : i.vector = 0 := by
  rw [Intr.vector, h]
  rfl

/-- Settles O54: a latch is written with OR and AND NOT, the two requests are the OR of gated bits, and each signal is the OR of the bits that
its mask selects. -/
theorem interruptModule : Obligations.InterruptModule := by
  refine ⟨fun i n k v h1 h5 hk => ⟨?set, ?clear, i.irqLow_iff⟩, fun i => ?high⟩
  case set =>
    change ((i.set n v).latch n).getLsbD k = ((i.latch n).getLsbD k || v.getLsbD k)
    rw [i.latch_set h1 h5, BitVec.getLsbD_or]
  case clear =>
    change ((i.clear n v).latch n).getLsbD k = ((i.latch n).getLsbD k && !v.getLsbD k)
    rw [i.latch_clear h1 h5, BitVec.getLsbD_and, BitVec.getLsbD_not, decide_eq_true hk, Bool.true_and]
  case high =>
    intro high some1 some2 some3 some4 some5
    have level (k : Nat) : high k = _ := BitVec.getLsbD_ofBoolListLE
    have signal (mask : Word) {k : Nat} {w : Word} {ks : List Nat} (h : high k = ((w &&& mask) != 0))
        (hm : ∀ j < 32, mask.getLsbD j = decide (j ∈ ks)) : high k = ks.any w.getLsbD := h.trans (and_mask_bne_zero_eq_any hm w)
    have signalOr (mask mask' : Word) {k : Nat} {w w' : Word} {ks ks' : List Nat}
        (h : high k = ((w &&& mask) != 0 || (w' &&& mask') != 0)) (hm : ∀ j < 32, mask.getLsbD j = decide (j ∈ ks))
        (hm' : ∀ j < 32, mask'.getLsbD j = decide (j ∈ ks')) : high k = (ks.any w.getLsbD || ks'.any w'.getLsbD) :=
      h.trans (congrArg₂ or (and_mask_bne_zero_eq_any hm w) (and_mask_bne_zero_eq_any hm' w'))
    exact ⟨level 0, signal 0x00000081 (level 1) (by decide), signal 0x08000000 (level 2) (by decide),
      signal 0x00020000 (level 3) (by decide), signal 0x00040000 (level 4) (by decide), signal 0x00000020 (level 5) (by decide),
      signalOr 0x00000003 0x00000060 (level 6) (by decide) (by decide), signal 0x000F0000 (level 7) (by decide),
      signalOr 0x00000003 0x00003000 (level 8) (by decide) (by decide), signal 0x000F0000 (level 9) (by decide),
      signal 0x00200000 (level 10) (by decide), signal 0x80000000 (level 11) (by decide), signal 0x0000000C (level 12) (by decide),
      signal 0x20000000 (level 13) (by decide), signal 0x40000000 (level 14) (by decide), signal 0x03000000 (level 15) (by decide),
      fun k hk => i.getLsbD_highMasked hk, i.irqHigh_iff, fun k hk => i.le_vector hk, i.vector_pending, i.vector_of_none⟩

/-! ## The periodic timer (R923) -/

/-- One clock of the timer that is enabled and not frozen. -/
theorem Dev.periodicClock_running {d : Dev} (hen : d.timer.ctl.getLsbD 4 = true) (hlive : d.timer.ctl.getLsbD 5 = false) :
    d.periodicClock.timer.perCnt = (if d.timer.perCnt = 0 then d.timer.perVal else d.timer.perCnt - 1) ∧
      d.periodicClock.intr = d.intr.setIf (d.timer.perCnt = 0) 5 29 := by
  simp only [Dev.periodicClock, bitOf, hen, hlive, Bool.not_false, Bool.and_self, if_true, and_self]

/-- Settles O55: at 0 the counter reloads and the latch is set; else one is taken from it and no latch is. -/
theorem periodicTimer : Obligations.PeriodicTimer := by
  intro d hen hlive e
  obtain ⟨hcount, hintr⟩ := Dev.periodicClock_running hen hlive
  refine ⟨fun hzero => ⟨?reload, ?latch⟩, fun hne => ⟨?count, ?quiet⟩⟩
  case reload => exact hcount.trans (if_pos hzero)
  case latch =>
    have hbit : (bitMask 29).getLsbD 29 = true := by decide
    have hset : e.intr.st5 = d.intr.st5 ||| bitMask 29 := by
      rw [hintr, decide_eq_true hzero]
      rfl
    rw [hset, BitVec.getLsbD_or, hbit, Bool.or_true]
  case count =>
    have hpos : d.timer.perCnt.toNat ≠ 0 := fun h => hne (BitVec.eq_of_toNat_eq h)
    rw [hcount, if_neg hne]
    bv_omega
  case quiet =>
    rw [hintr, decide_eq_false hne]
    rfl

end Sys2Proof.Machine
end
